-- ==== Sys2Proof/Word.lean ====
section
/-!
DEFINITION. The byte, and the plainest bounded arithmetic of the JS640 manual: the clamp and the saturation of its
Conventions (Introduction, "Numbers") and the station counters' saturation (R22).
-/

namespace Sys2Proof

/-- One byte, as the line, the store and the printer port carry it. -/
abbrev Byte := BitVec 8

/-- "A value said to be clamped to a range is replaced by the nearer end of the range" (Introduction, Numbers). -/
def clamp (lo hi v : Nat) : Nat := if v < lo then lo else if hi < v then hi else v

/-- A station counter counts up and saturates at 65535 (R22, Introduction, Counters). -/
def satAdd (n k : Nat) : Nat := min (n + k) 65535

end Sys2Proof
end

