-- ==== Sys2Proof/Syntax.lean ====
section
/-!
DEFINITION. The commands of the JS640: one constructor of `Instr` per row of spec/opcode_table.json. The table gives
its rows no operand bits; the operands here are the fields the manual gives each frame (R198, with the sender and the
addressee of R181), the samples of an instant (Introduction, Samples and instants) with the TRIGGER that reaches the part
during it, if any (R93; log 69), the straps a restart reads (R2) and the results of the store port (R120, R132).
-/

namespace Sys2Proof

/-- The strap pins as a restart reads them (R2). -/
structure Straps where
  station  : BitVec 4
  printer  : Bool
  currents : Bool
  deriving DecidableEq, Repr

/-- What a restart takes from outside the part: the straps of R16 stage 2, and the data pages that mismatch if the page
test of R137 or R139 is made. -/
structure RestartInputs where
  straps       : Straps
  failingPages : List Nat
  deriving DecidableEq, Repr

/-- The sender and addressee fields of a received frame (R181). The priority field is not checked on receipt (R184). -/
structure Rx where
  sender    : BitVec 4
  addressee : BitVec 4
  deriving DecidableEq, Repr

/-- The payload of SURVEY OPEN (R198); `label` holds the first count bytes of the label area. -/
structure SurveyOpenFrame where
  number  : BitVec 16
  un      : BitVec 16
  hz      : BitVec 8
  ts      : BitVec 16
  ti      : BitVec 16
  tw      : BitVec 16
  h       : BitVec 16
  k       : BitVec 16
  qh      : BitVec 8
  send    : BitVec 8
  accept  : BitVec 8
  hours   : BitVec 8
  minutes : BitVec 8
  seconds : BitVec 8
  label   : List Byte
  deriving DecidableEq, Repr

/-- One instant as the converter delivers it: six counts, of which only those of the fitted channels are taken. -/
structure Samples where
  v1 : BitVec 16
  v2 : BitVec 16
  v3 : BitVec 16
  i1 : BitVec 16
  i2 : BitVec 16
  i3 : BitVec 16
  deriving DecidableEq, Repr

/-- The payload of NOTE (R144, R198). -/
structure NoteFrame where
  id       : BitVec 16
  kind     : BitVec 8
  span     : BitVec 8
  corrects : BitVec 16
  text     : List Byte
  deriving DecidableEq, Repr

/-- The payload of PRINT REQUEST (R155, R198). -/
structure PrintRequestFrame where
  kind  : BitVec 8
  count : BitVec 8
  cls   : BitVec 8
  deriving DecidableEq, Repr

/-- The payload of PRINT ASK (R174, R198). -/
structure PrintAskFrame where
  job  : BitVec 8
  kind : BitVec 8
  cls  : BitVec 8
  deriving DecidableEq, Repr

/-- The payload of PRINT BLOCK (R162, R198). -/
structure PrintBlockFrame where
  job  : BitVec 8
  seq  : BitVec 16
  mark : BitVec 8
  text : List Byte
  deriving DecidableEq, Repr

/-- The payload of BEACON (R192, R198), as received: enumerated fields may carry a value that R197 does not name. -/
structure BeaconFrame where
  number  : BitVec 16
  state   : BitVec 8
  flags   : BitVec 8
  time    : BitVec 32
  tbState : BitVec 8
  freq    : BitVec 32
  cause   : BitVec 8
  deriving DecidableEq, Repr

/-- The payload of TRIGGER (R87, R198). -/
structure TriggerFrame where
  number : BitVec 16
  seq    : BitVec 16
  kind   : BitVec 8
  start  : BitVec 32
  deriving DecidableEq, Repr

/-- What an instant takes from outside the part: its samples, and the TRIGGER whose frame ends during it, if any (R93; log 69). -/
structure InstantInputs where
  samples : Samples
  between : Option (Rx × TriggerFrame)
  deriving DecidableEq, Repr

/-- The commands of the part, one per row of spec/opcode_table.json, in the table's order (LAWS.json maps each to its
mnemonic). -/
inductive Instr where
  | powerOn (inputs : RestartInputs)
  | supplyLoss
  | pinReset (inputs : RestartInputs)
  | supplyWarn
  | supplyWarnRelease
  | releaseTimer (inputs : RestartInputs)
  | surveyOpen (rx : Rx) (f : SurveyOpenFrame)
  | surveyClose (rx : Rx) (number : BitVec 16)
  | surveyTimeLimit
  | checkpointTimer
  | instant (inputs : InstantInputs)
  | crossingTimeout
  | holdoverExpiry
  | peerSourceLapse
  | captureComplete (slot : Fin 3)
  | blockFull
  | blockArithmeticDone
  | pageWriteComplete (ok : Bool)
  | systemWriteComplete (ok : Bool)
  | recordRead (rx : Rx) (record : BitVec 32) (chunk : BitVec 16)
  | note (rx : Rx) (f : NoteFrame)
  | noteExpiry (id : BitVec 16)
  | printRequest (rx : Rx) (f : PrintRequestFrame)
  | askAnswerTimer (entry : Fin 2)
  | refreshTimer (entry : Fin 2)
  | blockAnswerTimer (entry : Fin 2)
  | holdTimer (entry : Fin 2)
  | holdingLimit (entry : Fin 2)
  | queued (rx : Rx) (job : BitVec 8)
  | refused (rx : Rx) (job : BitVec 8) (reason : BitVec 8)
  | go (rx : Rx) (job : BitVec 8)
  | taken (rx : Rx) (job : BitVec 8) (seq : BitVec 16)
  | held (rx : Rx) (job : BitVec 8) (seq : BitVec 16)
  | drop (rx : Rx) (job : BitVec 8)
  | printAsk (rx : Rx) (f : PrintAskFrame)
  | goTimer
  | printBlock (rx : Rx) (f : PrintBlockFrame)
  | inactivityTimer
  | linePrinted
  | paperOut
  | paperIn
  | ready (level : Bool)
  | lineIdle
  | arbitrationLost
  | bitError
  | frameSent
  | triggerStale
  | badFrame (bits : List Bool)
  | stationConflict
  | otherFrame (rx : Rx) (kind : BitVec 5)
  | beacon (rx : Rx) (f : BeaconFrame)
  | trigger (rx : Rx) (f : TriggerFrame)
  | stationQuery (rx : Rx)
  | beaconTimer
  | rosterExpiry (station : BitVec 4)
  | headerWriteComplete (ok : Bool)
  deriving DecidableEq, Repr

end Sys2Proof
end

