-- ==== Sys2Proof/Decode.lean ====
section
/-!
DEFINITION. The commands that a word of the opcode table spells. The table gives none of its rows any bits: a command of
this part is an event or a frame, not a word.
-/

namespace Sys2Proof

/-- The command of a word of the opcode table: no row has bits, so no word spells a command. -/
def decodeTableWord (_nbits _w : Nat) : Option Instr := none

end Sys2Proof
end

