-- ==== Sys2Proof/Config.lean ====
section
/-!
DEFINITION. What the part fixes once (the clocks and the sizes the manual states), and the free values: opaque
constants without a body, for what the manual leaves open. A claim about a free value holds whatever it is.
-/

namespace Sys2Proof.Config

/-- Ticks of the 40 MHz reference in one millisecond of the crystal (Introduction, Time and frequency; log 2). -/
def ticksPerMs : Nat := 40000

/-- Survey time at which a survey closes itself (R8). -/
def surveyLimit : Nat := 4000000000

/-- The largest survey time, at which the clock saturates in CLOSED (R9). -/
def surveyMax : Nat := 4294967295

/-- The largest record number (R122). -/
def recordMax : Nat := 4294967295

/-- The first data page and the number of data pages (R119). -/
def firstDataPage : Nat := 128

/-- The number of data pages, 128..2047 (R119). -/
def dataPages : Nat := 1920

/-- The number of bytes of one page (R119). -/
def pageBytes : Nat := 1024

/-- The number of directory entries (R122). -/
def dirEntries : Nat := 1024

/-- What a byte of the non-volatile memory reads as when nothing has written it (DESIGN CHOICE, log 8). -/
def unlistedByte : Byte := 0

/-- FREE VALUE (log 5). The number that a station whose STATION strap reads 0 or 15 puts where a rule asks for this
station's number: R2 gives such a station no own number. Station numbers are 4-bit (00_scope.md, Records and stations). -/
opaque unnumberedStation : BitVec 4 → BitVec 4

/-- FREE VALUE (log 14). The class byte that a PRINT ASK carries for a ROUTINE job: R197 says only that it is not 1. -/
opaque routineClass : Nat

/-- FREE VALUE (log 6). How many bytes of a data page had reached the memory when the write was cut off (R132: "its
page holds whatever reached it"), drawn afresh for each cut. -/
opaque bytesReached : Nat → Nat

/-- FREE VALUE (log 7). What a write of the header or of a system item that was cut off (R12, R120), or that mismatched
twice, left behind, drawn afresh each time: read modulo 3, 0 the old contents, 1 contents whose check fails, 2 the new
contents. -/
opaque tornWrite : Nat → Nat

end Sys2Proof.Config
end

