-- ==== Sys2Proof/Machine/Bits.lean ====
section
/-!
DEFINITION. Bytes and bits: byte order, flag bytes, the bits of fields, the CRC-16 that frames, the survey header and the
system region carry, and lists kept in order of a key.
-/

namespace Sys2Proof.Machine

/-! ## Bytes (R197) -/

/-- `n` as `k` bytes, most significant byte first (R197). -/
def beBytes : Nat → Nat → List Byte
  | 0, _ => []
  | k + 1, n => BitVec.ofNat 8 (n / 256 ^ k) :: beBytes k n

/-- The value of bytes that stand most significant byte first (R197). -/
def fromBytes (bs : List Byte) : Nat := bs.foldl (fun a b => a * 256 + b.toNat) 0

/-- A flag byte whose named flags stand from bit 0 upward (R197). -/
def flagByte (flags : List Bool) : Nat := flags.foldr (fun f a => 2 * a + f.toNat) 0

/-! ## Lists in order of a key -/

/-- Inserts into a list that rises by `key`. -/
def insertBy {α : Type} (key : α → Nat) (a : α) : List α → List α
  | [] => [a]
  | b :: l => if key a ≤ key b then a :: b :: l else b :: insertBy key a l

/-- Sorts a list to rise by `key`. -/
def sortBy {α : Type} (key : α → Nat) (l : List α) : List α := l.foldr (insertBy key) []

/-! ## Bits and the CRC-16 (R180, R181, R11, R119) -/

/-- A field of `w` bits, most significant bit first (R181). A recessive bit, logic 1, is `true` (R180). -/
def fieldBits : Nat → Nat → List Bool
  | 0, _ => []
  | w + 1, n => n.testBit w :: fieldBits w n

/-- The value of bits that stand most significant first. -/
def bitsValue (bs : List Bool) : Nat := bs.foldl (fun a b => 2 * a + b.toNat) 0

/-- The bits of a payload, byte by byte (R181). -/
def payloadBits (p : List Byte) : List Bool := p.flatMap fun b => fieldBits 8 b.toNat

/-- One bit enters the CRC of polynomial x^16 + x^12 + x^5 + 1 (R181). -/
def crcStep (c : BitVec 16) (b : Bool) : BitVec 16 := if c.msb != b then (c <<< 1) ^^^ 0x1021 else c <<< 1

/-- The CRC of a run of bits, from an initial value of all ones (R181). -/
def crcOf (bs : List Bool) : BitVec 16 := bs.foldl crcStep 0xFFFF

end Sys2Proof.Machine
end

