-- ==== Sys2Proof/Machine/Region.lean ====
section
/-!
DEFINITION. The non-volatile memory (7.1): what the survey header, the BAD list, the store control page and a directory
entry hold, the bytes over which their checks are taken, and the places of the system region at which they stand.
-/

namespace Sys2Proof.Machine

/-! ## The survey header (R11) -/

/-- The survey states that the header records (R11). PARKED is `Mode.parked`. -/
inductive HeaderState where
  | idle | recording | rejoining | closed
  deriving DecidableEq, Repr

/-- The code of the survey state (R197). -/
def HeaderState.code : HeaderState → Nat
  | .idle => 0 | .recording => 1 | .rejoining => 2 | .closed => 3

/-- The three restart causes (R15). -/
inductive Cause where
  | powerOn | supplyDip | pinReset
  deriving DecidableEq, Repr

/-- The code of a restart cause (R197). -/
def Cause.code : Cause → Nat
  | .powerOn => 1 | .supplyDip => 2 | .pinReset => 3

/-- The survey parameters in force, with the start time of day and the site label (R3). -/
structure Params where
  un      : Nat
  hz      : Nat
  ts      : Nat
  ti      : Nat
  tw      : Nat
  h       : Nat
  k       : Nat
  qh      : Nat
  send    : Bool
  accept  : Bool
  hours   : Nat
  minutes : Nat
  seconds : Nat
  label   : List Byte
  deriving DecidableEq, Repr

/-- One restart log entry (R14). -/
structure LogEntry where
  cause      : Cause
  checkpoint : Nat
  deriving DecidableEq, Repr

/-- The survey header (R11) without its validity mark and check, which page 0 holds beside it. -/
structure Header where
  number     : Nat
  state      : HeaderState
  params     : Params
  checkpoint : Nat
  watermark  : Nat
  log        : List LogEntry
  deriving DecidableEq, Repr

/-! ## The directory, the BAD list and the store control page (R119, R122) -/

/-- The two capture kinds (R78, R122). -/
inductive CapKind where
  | own | companion
  deriving DecidableEq, Repr

/-- The code of a capture kind (R199). -/
def CapKind.code : CapKind → Nat
  | .own => 1 | .companion => 2

/-- The record tags (R122). -/
inductive Tag where
  | sag | waveform | interval | note
  deriving DecidableEq, Repr

/-- The code of a record tag (R197). -/
def Tag.code : Tag → Nat
  | .sag => 1 | .waveform => 2 | .interval => 3 | .note => 4

/-- The store outcomes (R122). -/
inductive StoreOutcome where
  | none | storeError | lostPower
  deriving DecidableEq, Repr

/-- The fields of a directory entry that are written to the system region (R122). -/
structure DirImage where
  record   : Nat
  tag      : Tag
  capKind  : Option CapKind
  sealed   : Bool
  outcome  : StoreOutcome
  created  : Nat
  pages    : List Nat
  verified : Nat
  deriving DecidableEq, Repr

/-- One copy of the BAD list (R119). -/
structure BadCopy where
  count : Nat
  pages : List Nat
  deriving DecidableEq, Repr

/-- One copy of the store control page (R119). -/
structure CtlCopy where
  count : Nat
  last  : Nat
  deriving DecidableEq, Repr

/-- What one item of the system region holds besides its check (R11, R119). -/
inductive SysContent where
  | header (h : Header)
  | bad (c : BadCopy)
  | ctl (c : CtlCopy)
  | entry (d : DirImage)
  deriving DecidableEq, Repr

/-! ## Checks (R11, R119) -/

/-- The bytes of a header, its validity mark first (R11; log 15). -/
def Header.bytes (h : Header) : List Byte :=
  let p := h.params
  beBytes 2 0x4A53 ++ beBytes 2 h.number ++ beBytes 1 h.state.code ++ beBytes 2 p.un ++ beBytes 1 p.hz ++ beBytes 2 p.ts ++
    beBytes 2 p.ti ++ beBytes 2 p.tw ++ beBytes 2 p.h ++ beBytes 2 p.k ++ beBytes 1 p.qh ++
    beBytes 1 (flagByte [p.send, p.accept]) ++ beBytes 1 p.hours ++ beBytes 1 p.minutes ++ beBytes 1 p.seconds ++
    beBytes 1 p.label.length ++ p.label ++ List.replicate (16 - p.label.length) 0 ++ beBytes 4 h.checkpoint ++
    beBytes 4 h.watermark ++ beBytes 1 h.log.length ++ h.log.flatMap fun e => beBytes 1 e.cause.code ++ beBytes 4 e.checkpoint

/-- The bytes of a copy of the BAD list: its write count and one bit for each data page (R119; log 15). -/
def BadCopy.bytes (c : BadCopy) : List Byte :=
  beBytes 4 c.count ++ (List.range (Config.dataPages / 8)).flatMap fun i =>
    beBytes 1 (flagByte ((List.range 8).map fun b => c.pages.contains (Config.firstDataPage + 8 * i + b)))

/-- The bytes of a copy of the store control page (R119; log 15). -/
def CtlCopy.bytes (c : CtlCopy) : List Byte := beBytes 4 c.count ++ beBytes 4 c.last

/-- The code of a store outcome (log 15). -/
def StoreOutcome.code : StoreOutcome → Nat
  | .none => 0 | .storeError => 1 | .lostPower => 2

/-- The bytes of a live directory entry (R119, R122; log 15). -/
def DirImage.bytes (d : DirImage) : List Byte :=
  beBytes 4 d.record ++ beBytes 1 d.tag.code ++ beBytes 1 ((d.capKind.map CapKind.code).getD 0) ++ beBytes 1 (flagByte [d.sealed]) ++
    beBytes 1 d.outcome.code ++ beBytes 4 d.created ++ beBytes 1 d.pages.length ++ d.pages.flatMap (beBytes 2) ++
    beBytes 1 d.verified

/-- The bytes that the check of an item is taken over. -/
def SysContent.bytes : SysContent → List Byte
  | .header h => h.bytes
  | .bad c => c.bytes
  | .ctl c => c.bytes
  | .entry d => d.bytes

/-- The check of an item: the CRC-16 of R11. -/
def SysContent.crc (c : SysContent) : BitVec 16 := crcOf (payloadBits c.bytes)

/-- An item as it stands in the memory: its content and its check (R11, R119). -/
structure SysCell where
  content : SysContent
  check   : BitVec 16
  deriving DecidableEq, Repr

/-- An item written whole. -/
def SysContent.cell (c : SysContent) : SysCell := { content := c, check := c.crc }

/-- An item whose write left a check that does not agree (R12, R120). -/
def SysContent.torn (c : SysContent) : SysCell := { content := c, check := ~~~c.crc }

/-- The check agrees with the content. -/
def SysCell.agrees (c : SysCell) : Bool := c.check == c.content.crc

/-! ## Places (R119) -/

/-- An item that the store controller keeps in the system region: a directory entry, with the record number of the live
record written there or none for an empty one, or one copy of the BAD list or of the store control page. What the item
holds is taken from the working copies when it is written (R120; log 45). -/
inductive SysItem where
  | entry (index : Nat) (record : Option Nat)
  | bad (second : Bool)
  | ctl (second : Bool)
  deriving DecidableEq, Repr

/-- The page of the survey header (R119). -/
def headerPage : Nat := 0

/-- The page of an item: the BAD list in pages 1 and 2, the store control page in pages 3 and 4, and entry e of the
directory in page 5 + floor(e / 9). Pages 119 to 127 hold no item (R119). -/
def SysItem.page : SysItem → Nat
  | .bad second => if second then 2 else 1
  | .ctl second => if second then 4 else 3
  | .entry e _ => 5 + e / 9

/-- The bytes that one of the nine entries of a directory page has (R119; log 15). -/
def entryBytes : Nat := 113

/-- The address of an item: whole pages from their first byte on, nine entries to a directory page (R119). -/
def SysItem.address (i : SysItem) : Nat :=
  i.page * Config.pageBytes + match i with
    | .entry e _ => e % 9 * entryBytes
    | .bad _ | .ctl _ => 0

/-! ## The whole memory -/

/-- The bytes of the data pages: pairs of address and byte, addresses rising, none equal to what an unlisted address reads
as (`Memory.wf`). -/
abbrev Memory := List Host.Cell

/-- The non-volatile memory (R119): the system region, by rising address of the items written in it, and the data pages,
byte by byte. An address of the system region that is not listed holds no validity mark, no check that agrees, or an empty
entry. -/
structure Region where
  sys : List (Nat × SysCell)
  mem : Memory
  deriving DecidableEq, Repr

/-- Writes an item at an address of the system region. -/
def Region.put (nv : Region) (a : Nat) (c : SysCell) : Region :=
  { nv with sys := insertBy (·.1) (a, c) (nv.sys.filter fun x => x.1 != a) }

/-- Writes an entry empty at its address. -/
def Region.erase (nv : Region) (a : Nat) : Region := { nv with sys := nv.sys.filter fun x => x.1 != a }

/-- What is read at an address of the system region, when its check agrees (R11, R137). -/
def Region.read (nv : Region) (a : Nat) : Option SysContent :=
  match nv.sys.find? fun x => x.1 == a with
  | some x => if x.2.agrees then some x.2.content else none
  | none => none

/-- The header in page 0, when it is valid (R11). -/
def Region.header (nv : Region) : Option Header :=
  match nv.read (headerPage * Config.pageBytes) with
  | some (.header h) => some h
  | _ => none

/-- A valid copy of the BAD list. -/
def Region.badCopy (nv : Region) (second : Bool) : Option BadCopy :=
  match nv.read (SysItem.bad second).address with
  | some (.bad c) => some c
  | _ => none

/-- A valid copy of the store control page. -/
def Region.ctlCopy (nv : Region) (second : Bool) : Option CtlCopy :=
  match nv.read (SysItem.ctl second).address with
  | some (.ctl c) => some c
  | _ => none

/-- The live record in entry `i`, when its check agrees. -/
def Region.entry (nv : Region) (i : Nat) : Option DirImage :=
  match nv.read (SysItem.entry i none).address with
  | some (.entry d) => some d
  | _ => none

/-- The live entries, by rising entry number (R137 step 3). -/
def Region.dir (nv : Region) : List (Nat × DirImage) :=
  (List.range Config.dirEntries).filterMap fun i => (nv.entry i).map fun d => (i, d)

end Sys2Proof.Machine
end

