-- ==== Sys2Proof/Machine/State.lean ====
section
/-!
DEFINITION. The state of the JS640 as plain data: every piece of state the manual gives a block, block by block as in the
Introduction's block overview; the reasons a command could stop; and the state right after reset. INVENTORY.md lists
each field with its rule and its reset value.
-/

namespace Sys2Proof.Machine

/-! ## Reasons to stop -/

/-- No rule of the manual stops a command with a fault: every command of the table has a next state, so this type has
no constructor. -/
inductive Fault where
  deriving DecidableEq, Repr

/-- Reasons a command is turned away. `notModelled` is for an arm without a meaning; no arm of this model answers with
it. Safe: a run that stops proves nothing false. -/
inductive Refusal where
  | notModelled (mnemonic : String)
  deriving DecidableEq, Repr

/-! ## Survey control (chapter 1) -/

/-- Whether the part runs, is PARKED (R20), or is without supply (R15). -/
inductive Mode where
  | running | parked | off
  deriving DecidableEq, Repr

/-- The crystal, in ticks of 25 ns, and survey time (R9), with the ticks run of its present millisecond. -/
structure Clock where
  now    : Nat
  survey : Nat
  phase  : Nat
  deriving DecidableEq, Repr

/-- The levels of the SUPPLY WARN, READY and PAPER OUT inputs. -/
structure Pins where
  supplyWarn : Bool
  ready      : Bool
  paperOut   : Bool
  deriving DecidableEq, Repr

/-- A SURVEY OPEN whose acceptance waits for the page write under way (R4 stage 2). -/
structure OpenRequest where
  sender   : Nat
  number   : Nat
  params   : Params
  clamped  : Bool
  frameEnd : Nat
  deriving DecidableEq, Repr

/-- What goes on once the closing writes of the captures that it sealed have ended: a close, with the stations whose SURVEY CLOSE
it answers, in the order in which they asked (R6, R7), or parking (R20). -/
inductive SealingEnd where
  | close (asked : List Nat)
  | park
  deriving DecidableEq, Repr

/-- The stage of a close or of parking that seals captures, under way: the records of the captures sealed CUT or SUPPLY in it,
whose closing writes are made in it (R95), and what goes on after it. -/
structure Sealing where
  records : List Nat
  goesOn  : SealingEnd
  deriving DecidableEq, Repr

/-- Operations of survey control that are under way, and the release timer (R4, R6, R20, R21). -/
structure Supply where
  releaseTimer : Option Nat
  restartDue   : Option RestartInputs
  parkWait     : Bool
  parkDue      : Bool
  opening      : Option OpenRequest
  sealing      : Option Sealing
  deriving DecidableEq, Repr

/-! ## Timebase (chapter 2) -/

/-- The five timebase states (chapter 2). -/
inductive TbState where
  | stopped | locked | holdover | peer | free
  deriving DecidableEq, Repr

/-- The timebase unit (R23), with a period that P changes to at the next strobe (R38), the next strobe (R25) and the sample a
crossing is measured from (R28, R29). -/
structure Timebase where
  state        : TbState
  ref          : Nat
  history      : List Nat
  lastCrossing : Option Nat
  armLow       : Bool
  armHigh      : Bool
  period       : Nat
  nextPeriod   : Option Nat
  frac         : Nat
  index        : Option Nat
  resetNext    : Bool
  cycle        : Nat
  held         : Nat
  qual         : Nat
  source       : Option Nat
  nextStrobe   : Nat
  prev         : Option (Nat × List Int)
  deriving DecidableEq, Repr

/-! ## Level monitor (chapter 3) -/

/-- The four states of a voltage channel (chapter 3). -/
inductive ChState where
  | normal | sagged | interrupted | swollen
  deriving DecidableEq, Repr

/-- What the level monitor holds for each fitted channel (R41). -/
structure Chan where
  window  : List Int
  sumSq   : Nat
  clips   : Nat
  rq      : Option Nat
  clipped : Bool
  deriving DecidableEq, Repr

/-- What the level monitor holds besides for each voltage channel (R41). -/
structure Volt where
  level : Option Nat
  st    : ChState
  deriving DecidableEq, Repr

/-- The level monitor (R41). -/
structure Level where
  chans : List Chan
  volts : List Volt
  count : Nat
  deriving DecidableEq, Repr

/-! ## Event unit (chapter 4) -/

/-- The kinds of a disturbance event (R62). -/
inductive EventKind where
  | swell | sag | interruption
  deriving DecidableEq, Repr

/-- The open-event record (R58). A level stands with its channel number 1..3. -/
structure OpenEvent where
  seq       : Nat
  start     : Nat
  tb        : TbState
  kind      : EventKind
  involved  : List Nat
  residual  : Option (Nat × Nat)
  maximum   : Option (Nat × Nat)
  clipped   : Bool
  peaks     : List Nat
  duration  : Nat
  saturated : Bool
  related   : List (Nat × Nat)
  link      : Option Nat
  unsure    : Bool
  deriving DecidableEq, Repr

/-- The event unit (R57). The EVENT lamp is lit exactly while `event` is present (R74). -/
structure EventUnit where
  event : Option OpenEvent
  seq   : Nat
  deriving DecidableEq, Repr

/-! ## Capture unit (chapter 5) -/

/-- The outcome a WAVEFORM header shows (R98). -/
inductive CapOutcome where
  | opened | complete | truncated | cut | supply
  deriving DecidableEq, Repr

/-- A capture slot that is not FREE (R78), with the bytes it holds until their page is full (R83). -/
structure Slot where
  num         : Nat
  closing     : Bool
  kind        : CapKind
  level       : Nat
  station     : Nat
  seq         : Nat
  opened      : Nat
  originStart : Nat
  pre         : Nat
  post        : Nat
  record      : Nat
  tb          : TbState
  period      : Nat
  late        : Bool
  lag         : Nat
  converted   : Bool
  offset      : Nat
  outcome     : CapOutcome
  unsure      : Bool
  buf         : List Byte
  nextPos     : Nat
  deriving DecidableEq, Repr

/-- The capture unit: the pre-trigger ring (R76), oldest first, and the slots that are not FREE (R78). -/
structure Capture where
  ring  : List (List (BitVec 16))
  slots : List Slot
  deriving DecidableEq, Repr

/-! ## Harmonic analyser (chapter 6) -/

/-- The results of one channel of a block: A_1..A_40, and the ratios of orders 2..40 with the THD unless the fundamental
is low (R105 to R107). -/
structure ChanResult where
  amps   : List Nat
  ratios : Option (List Nat)
  thd    : Option Nat
  deriving DecidableEq, Repr

/-- A current or settling block (R100). `judged` says that no verdict is awaited on the cycle
of its last instant: it is in hand, or that instant was taken outside LOCKED (R102, R108). -/
structure Block where
  taken       : Nat
  sums        : List (List (Int × Int))
  first       : Nat
  firstUnsure : Bool
  last        : Nat
  lastUnsure  : Bool
  tbMark      : Bool
  evMark      : Bool
  interval    : Nat
  judged      : Bool
  results     : Option (List ChanResult)
  deriving DecidableEq, Repr

/-- The interval accumulators (R100). -/
structure Accum where
  interval    : Nat
  start       : Nat
  startUnsure : Bool
  stop        : Nat
  stopUnsure  : Bool
  sums        : List (List Nat)
  maxima      : List (Option (List Nat))
  m           : Nat
  xT          : Nat
  xE          : Nat
  deriving DecidableEq, Repr

/-- The harmonic analyser (R100). -/
structure Harmonic where
  current         : Option Block
  settling        : Option Block
  blockCounter    : Nat
  intervalCounter : Nat
  accum           : Option Accum
  deriving DecidableEq, Repr

/-! ## Record store (chapter 7) -/

/-- A live directory entry in the working copy (R122). `keep` is present while a write of the entry with a shortened page
list is awaited (R95 step 2, R134): the entry is written with that many positions, and then the others become FREE (R136).
`opened` is the MODEL's own: of a WAVEFORM, the bytes of the last verified header page with outcome OPEN (R97; log 6). -/
structure Entry where
  index  : Nat
  img    : DirImage
  pins   : Nat
  fails  : Nat
  noteId : Option Nat
  keep   : Option Nat
  opened : List Byte
  deriving DecidableEq, Repr

/-- The state of a data page in the page map (R121); IN USE names the owning entry. -/
inductive PageState where
  | free
  | inUse (entry : Nat)
  | bad
  deriving DecidableEq, Repr

/-- What a producer asks of the store (R126). -/
structure CreateRequest where
  tag     : Tag
  capKind : Option CapKind
  noteId  : Option Nat
  pages   : Nat
  deriving DecidableEq, Repr

/-- What follows a page write once it is verified: nothing; the release of the later positions and the final header page
(R95 steps 2 and 3, with the header's bytes); or the seal of the record (R135). -/
inductive PageNext where
  | more
  | close (header : List Byte)
  | seal
  deriving DecidableEq, Repr

/-- A write handed to the store port and not yet finished: a page of a record, an item of the system region, or the header;
`retried` once it has mismatched (R12, R120). -/
inductive StoreWrite where
  | page (record position : Nat) (bytes : List Byte) (next : PageNext)
  | sys (item : SysItem) (retried : Bool)
  | header (h : Header) (retried : Bool)
  deriving DecidableEq, Repr

/-- A page that a failed write retires (R133, R134), from the mismatch on: the entry that owns it, its position, and whether it
was the record's second failure. It becomes BAD once `listed`, when a copy of the BAD list that holds it has been verified; a page
replaced stays here until its write has been repeated. -/
structure Retiring where
  entry    : Nat
  position : Nat
  page     : Nat
  second   : Bool
  listed   : Bool
  deriving DecidableEq, Repr

/-- The record store controller: the memory, its writes in the order handed over, and the working copies of the BAD
list, the control page and the directory (R120). The page map of R121 is read from `bad` and `dir` by `pageState`.
`draws` is the MODEL's own: how many free values have been drawn. -/
structure Store where
  nv       : Region
  writes   : List StoreWrite
  bad      : List Nat
  badCount : Nat
  last     : Nat
  ctlCount : Nat
  dir      : List Entry
  retiring : Option Retiring
  draws    : Nat
  deriving DecidableEq, Repr

/-! ## Notes table (chapter 8) -/

/-- A notes table entry (R143); `site` tells SITE from OBSERVATION, `expired` EXPIRED from ACTIVE. -/
structure NoteEntry where
  id       : Nat
  site     : Bool
  text     : List Byte
  received : Nat
  spanEnd  : Option Nat
  expired  : Bool
  lastCorr : Option Nat
  record   : Option Nat
  deriving DecidableEq, Repr

/-! ## Report engine and printer service (chapter 9) -/

/-- A side of the print exchange: this station itself (R166), or the station of that number. -/
inductive Party where
  | own
  | station (n : Nat)
  deriving DecidableEq, Repr

/-- The report kinds (R155). -/
inductive ReportKind where
  | sagList | harmonicSummary | noteList | surveySheet
  deriving DecidableEq, Repr

/-- The states of an origin job that has not ended (R156). -/
inductive JobState where
  | asked | queued | sending
  deriving DecidableEq, Repr

/-- The current block of a job: its sequence, its line or, when absent, the END mark, and its send count (R156). -/
structure CurBlock where
  seq   : Nat
  line  : Option (List Byte)
  sends : Nat
  deriving DecidableEq, Repr

/-- How far a report's lines have been made: the group, the item within it, the line of the item, and the number of
items fixed when the group's first line was made (R167, R172). -/
structure Cursor where
  group : Nat
  item  : Nat
  line  : Nat
  count : Nat
  deriving DecidableEq, Repr

/-- An origin job (R156) in entry 0 or 1 of the table. Timers hold the crystal time of their expiry while they run. -/
structure Job where
  entry        : Nat
  number       : Nat
  kind         : ReportKind
  count        : Nat
  urgent       : Bool
  printer      : Party
  state        : JobState
  records      : List Nat
  more         : Nat
  nextSeq      : Nat
  current      : Option CurBlock
  heldTicks    : Nat
  heldSince    : Option Nat
  askSends     : Nat
  answerTimer  : Option Nat
  refreshTimer : Option Nat
  holdTimer    : Option Nat
  cursor       : Cursor
  deriving DecidableEq, Repr

/-- The report engine: the jobs of the entries in use, and the last job number issued (R156). -/
structure Report where
  jobs    : List Job
  lastJob : Nat
  deriving DecidableEq, Repr

/-- The states of the printer service (R173). -/
inductive ServiceState where
  | idle | printing | finishing
  deriving DecidableEq, Repr

/-- A print queue entry (R173). -/
structure QueueEntry where
  origin   : Party
  job      : Nat
  kind     : ReportKind
  urgent   : Bool
  entered  : Nat
  printing : Bool
  deriving DecidableEq, Repr

/-- The last job ended by its END block (R173). -/
structure EndedJob where
  origin : Party
  job    : Nat
  seq    : Nat
  deriving DecidableEq, Repr

/-- The printer service (R173). The paper state is PRESENT exactly while the PAPER OUT input is released; `port` holds the
bytes that the last line printed put on the printer port. -/
structure Printer where
  state     : ServiceState
  queue     : List QueueEntry
  buffer    : List (List Byte)
  trailer   : Option (List Byte)
  lastTaken : Nat
  lines     : Nat
  waiting   : Option (Nat × List Byte)
  grants    : List Party
  lastEnded : Option EndedJob
  inactivity : Option Nat
  goTimer   : Option Nat
  port      : List Byte
  deriving DecidableEq, Repr

/-! ## Line interface (chapter 10) -/

/-- The beacon fields of a roster entry (R193), as received. -/
structure BeaconInfo where
  number  : Nat
  state   : Nat
  flags   : Nat
  time    : Nat
  tbState : Nat
  freq    : Nat
  cause   : Nat
  deriving DecidableEq, Repr

/-- The payloads of the frames that a JS640 sends (R198). A beacon has its fields once an attempt has begun (R192). -/
inductive Payload where
  | requestAnswer (request code job : Nat) (clamped : Bool)
  | recordData (record chunk status : Nat) (bytes : List Byte)
  | stationReport (state number time flags tb freq : Nat) (counters : List Nat)
  | beacon (fields : Option BeaconInfo)
  | trigger (number seq kind start : Nat)
  | printAsk (job kind cls : Nat)
  | queued (job : Nat)
  | refused (job reason : Nat)
  | go (job : Nat)
  | printBlock (job seq mark : Nat) (text : List Byte)
  | taken (job seq : Nat)
  | held (job seq : Nat)
  | drop (job : Nat)
  deriving DecidableEq, Repr

/-- A frame of the transmit queue (R185). `sending` while it is under transmission; `noRetry` when it is not to be tried
again if that transmission fails (R88, R186). -/
structure TxFrame where
  payload   : Payload
  addressee : Nat
  queuedAt  : Nat
  attempts  : Nat
  sending   : Bool
  noRetry   : Bool
  deriving DecidableEq, Repr

/-- A roster entry that is not empty (R193). Times are crystal times. -/
structure RosterEntry where
  station    : Nat
  lastFrame  : Nat
  lastBeacon : Option Nat
  beacon     : Option BeaconInfo
  deriving DecidableEq, Repr

/-- The line interface: the transmit queue in order of queuing (R185), the roster by ascending station (R193), the MUTED
flag (R190) and the beacon timer (R191). -/
structure Line where
  queue       : List TxFrame
  roster      : List RosterEntry
  muted       : Bool
  beaconTimer : Option Nat
  deriving DecidableEq, Repr

/-- The 17 station counters, in the order of R195. -/
structure Counters where
  events                : Nat := 0
  summariesLost         : Nat := 0
  companionsOpened      : Nat := 0
  companionsMissed      : Nat := 0
  capturesTruncated     : Nat := 0
  capturesNoWave        : Nat := 0
  triggersStale         : Nat := 0
  intervalsSealed       : Nat := 0
  intervalsLost         : Nat := 0
  blocksTimebase        : Nat := 0
  blocksEvent           : Nat := 0
  recordsReclaimed      : Nat := 0
  badPages              : Nat := 0
  notesExpiredEarly     : Nat := 0
  jobsCompleted         : Nat := 0
  jobsAbandoned         : Nat := 0
  jobsRefused           : Nat := 0
  deriving DecidableEq, Repr

/-! ## The whole part -/

/-- The state of the part, and the commands that wait, first in, first out. -/
structure State where
  pending   : List Instr
  mode      : Mode
  clock     : Clock
  pins      : Pins
  straps    : Straps
  sup       : Supply
  hdr       : Header
  lastCause : Cause
  ckpt      : Option Nat
  tb        : Timebase
  lev       : Level
  ev        : EventUnit
  cap       : Capture
  har       : Harmonic
  store     : Store
  notes     : List NoteEntry
  rep       : Report
  prn       : Printer
  line      : Line
  ctr       : Counters
  deriving DecidableEq, Repr

/-! ## Reset -/

/-- The parameters of a fresh header (R11): the lower limit of each range, 50 Hz, both cross-trigger settings off, start
time 00:00:00 and an empty label. -/
def defaultParams : Params :=
  { un := 500, hz := 50, ts := 5000, ti := 100, tw := 10500, h := 50, k := 1, qh := 25, send := false, accept := false,
    hours := 0, minutes := 0, seconds := 0, label := [] }

/-- The header a format writes (R11). -/
def freshHeader : Header :=
  { number := 0, state := .idle, params := defaultParams, checkpoint := 0, watermark := 0, log := [] }

/-- A fitted channel of the level monitor at a start (R41). -/
def freshChan : Chan := { window := [], sumSq := 0, clips := 0, rq := none, clipped := false }

/-- The level monitor at a start, with `n` channels fitted (R41). -/
def freshLevel (n : Nat) : Level :=
  { chans := List.replicate n freshChan, volts := List.replicate 3 { level := none, st := .normal }, count := 0 }

/-- The line the printer service prints after a restart (R173): "** PRINTER RESTART". -/
def restartLine : List Byte := "** PRINTER RESTART".toList.map fun c => BitVec.ofNat 8 c.toNat

/-- The printer service after a restart (R173). -/
def freshPrinter (fitted : Bool) : Printer :=
  { state := if fitted then .finishing else .idle, queue := [], buffer := [], trailer := if fitted then some restartLine else none,
    lastTaken := 0, lines := 0, waiting := none, grants := [], lastEnded := none, inactivity := none, goTimer := none, port := [] }

/-- The header of `State.reset`: a fresh header with the entry of the POWER-ON restart (R14, R16). -/
def resetHeader : Header := { freshHeader with log := [{ cause := .powerOn, checkpoint := 0 }] }

/-- The system region of `State.reset`: the header, two copies of an empty BAD list and two of the store control page, each
with its check (R119, R139). -/
def resetRegion : List (Nat × SysCell) :=
  [(headerPage * Config.pageBytes, (SysContent.header resetHeader).cell),
   ((SysItem.bad false).address, (SysContent.bad { count := 1, pages := [] }).cell),
   ((SysItem.bad true).address, (SysContent.bad { count := 1, pages := [] }).cell),
   ((SysItem.ctl false).address, (SysContent.ctl { count := 1, last := 0 }).cell),
   ((SysItem.ctl true).address, (SysContent.ctl { count := 1, last := 0 }).cell)]

/-- The machine right after reset (log 3): the end of a POWER-ON restart (R16, R17) that found a blank store, formatted it
(R139) and has had its writes verified; straps station 1, printer and current channels fitted; no input asserted but
READY. -/
def State.reset : State :=
  { pending := []
    mode := .running
    clock := { now := 0, survey := 0, phase := 0 }
    pins := { supplyWarn := false, ready := true, paperOut := false }
    straps := { station := 1, printer := true, currents := true }
    sup := { releaseTimer := none, restartDue := none, parkWait := false, parkDue := false, opening := none, sealing := none }
    hdr := resetHeader
    lastCause := .powerOn
    ckpt := none
    tb := { state := .stopped, ref := 0, history := [], lastCrossing := none, armLow := false, armHigh := false, period := 800000,
            nextPeriod := none, frac := 0, index := none, resetNext := false, cycle := 0, held := 0, qual := 0, source := none,
            nextStrobe := 0, prev := none }
    lev := freshLevel 6
    ev := { event := none, seq := 1 }
    cap := { ring := [], slots := [] }
    har := { current := none, settling := none, blockCounter := 0, intervalCounter := 0, accum := none }
    store := { nv := { sys := resetRegion, mem := [] }, writes := [], bad := [], badCount := 1, last := 0, ctlCount := 1, dir := [],
               retiring := none, draws := 0 }
    notes := []
    rep := { jobs := [], lastJob := 0 }
    prn := freshPrinter true
    line := { queue := [], roster := [], muted := false, beaconTimer := some 2000000 }
    ctr := {} }

end Sys2Proof.Machine
end

