-- ==== Sys2Proof/Machine/Ops.lean ====
section
/-!
DEFINITION. Operations shared by every block: integer arithmetic (integer square root, byte order), text and number
formats, the bytes of the data pages, the passing of crystal time, the transmit queue, the roster and the taking of
received frames.
-/

namespace Sys2Proof.Machine

/-! ## Arithmetic -/

/-- The binary digits of the integer square root, from bit `b - 1` down. -/
def isqrtFrom : Nat → Nat → Nat → Nat
  | 0, _, r => r
  | b + 1, n, r => if (r + 2 ^ b) * (r + 2 ^ b) ≤ n then isqrtFrom b n (r + 2 ^ b) else isqrtFrom b n r

/-- The integer square root: the largest integer whose square does not exceed `n` (R47, R105). -/
def isqrt (n : Nat) : Nat := isqrtFrom (n.log2 / 2 + 1) n 0

/-- Appends to a list that keeps at most `cap` elements: the oldest leaves first (R29, R43, R76). -/
def pushBounded {α : Type} (cap : Nat) (l : List α) (a : α) : List α :=
  if l.length < cap then l ++ [a] else l.drop (l.length + 1 - cap) ++ [a]

/-- The last `n` elements of a list, in order. -/
def lastOf {α : Type} (n : Nat) (l : List α) : List α := l.drop (l.length - n)

/-! ## Text and number formats (R168, R200) -/

/-- The bytes of a text the part composes. -/
def txt (s : String) : List Byte := s.toList.map fun c => BitVec.ofNat 8 c.toNat

/-- A space. -/
def sp : List Byte := [32]

/-- Text as kept: each character outside 0x20..0x7E is replaced by '?' (R200). -/
def keepText (t : List Byte) : List Byte := t.map fun b => if 32 ≤ b.toNat ∧ b.toNat ≤ 126 then b else 63

/-- Decimal digits of `n`, at most `fuel` of them, before `acc`. -/
def digitsInto : Nat → Nat → List Byte → List Byte
  | 0, _, acc => acc
  | fuel + 1, n, acc =>
    if n < 10 then BitVec.ofNat 8 (48 + n) :: acc else digitsInto fuel (n / 10) (BitVec.ofNat 8 (48 + n % 10) :: acc)

/-- `n` in decimal, without leading zeros (numbers of the part have at most 20 digits). -/
def dec (n : Nat) : List Byte := digitsInto 20 n []

/-- `n` in decimal with leading zeros, `w` digits. -/
def decZeros : Nat → Nat → List Byte
  | 0, _ => []
  | w + 1, n => BitVec.ofNat 8 (48 + n / 10 ^ w % 10) :: decZeros w n

/-- Right-aligned in a field of `w`, padded with spaces; a longer form fills the field with '*' (R168). -/
def field (w : Nat) (t : List Byte) : List Byte :=
  if w < t.length then List.replicate w 42 else List.replicate (w - t.length) 32 ++ t

/-- Left-aligned in a field of `w`, padded with spaces on the right (R168, R172). -/
def fieldLeft (w : Nat) (t : List Byte) : List Byte := t ++ List.replicate (w - t.length) 32

/-- A quantity with `d` decimals: a point stands `d` digits from the right (R168). -/
def decimals (d n : Nat) : List Byte := dec (n / 10 ^ d) ++ txt "." ++ decZeros d n

/-- A number right-aligned in a field of `w` (R168). -/
def num (w n : Nat) : List Byte := field w (dec n)

/-- A value that may be absent: "-" stands for an absent one (R168). -/
def orDash (w : Nat) (v : Option (List Byte)) : List Byte := field w (v.getD (txt "-"))

/-! ## Data pages, byte by byte -/

/-- The data memory: addresses strictly rising, within the 2 MiB, and no entry equal to what an unlisted address reads
as. -/
abbrev Memory.wf (m : Memory) : Prop :=
  m.Pairwise (fun a b => a.1 < b.1) ∧ ∀ c ∈ m, c.1 < 2048 * Config.pageBytes ∧ c.2 ≠ Config.unlistedByte

/-- The byte at an address. -/
def Memory.read (m : Memory) (a : Nat) : Byte :=
  match m.find? (fun c => c.1 == a) with
  | some c => c.2
  | none => Config.unlistedByte

/-- The bytes of a run of addresses. -/
def Memory.readRun (m : Memory) (a n : Nat) : List Byte := (List.range n).map fun i => m.read (a + i)

/-- The cells that a run of bytes from address `a` lists. -/
def Memory.cellsFrom : Nat → List Byte → Memory
  | _, [] => []
  | a, b :: bs => if b = Config.unlistedByte then cellsFrom (a + 1) bs else (a, b) :: cellsFrom (a + 1) bs

/-- Replaces the bytes from address `a` on. -/
def Memory.write (m : Memory) (a : Nat) (bs : List Byte) : Memory :=
  m.filter (fun c => c.1 < a) ++ cellsFrom a bs ++ m.filter (fun c => a + bs.length ≤ c.1)

/-- The 1024 bytes of a page whose laid-out bytes are `bs`: the rest is zero (R125). -/
def pageOf (bs : List Byte) : List Byte := (bs ++ List.replicate Config.pageBytes 0).take Config.pageBytes

/-- A data page (R119). -/
abbrev isDataPage (p : Nat) : Prop := Config.firstDataPage ≤ p ∧ p < Config.firstDataPage + Config.dataPages

/-- Writes the first `n` bytes of a page of the data region; no other page is reached through it (R119). -/
def Memory.writePage (m : Memory) (p n : Nat) (bs : List Byte) : Memory :=
  if isDataPage p then m.write (p * Config.pageBytes) ((pageOf bs).take n) else m

/-- The outcome that a WAVEFORM's header page shows becomes OPEN, code 0 at offset 6 (R199). -/
def Memory.showOpen (m : Memory) (p : Nat) : Memory := if isDataPage p then m.write (p * Config.pageBytes + 6) [0] else m

/-! ## The clock and the passing of time (R9, R151) -/

/-- The part has supply and is not PARKED: its survey state is then the header's (R1, R11). -/
abbrev State.isRunning (s : State) : Bool := s.mode == .running

/-- The state RECORDING or REJOINING of a part that runs (R1). -/
def State.inSurvey (s : State) : Bool := s.isRunning && (s.hdr.state == .recording || s.hdr.state == .rejoining)

/-- Measurement runs (R1): no close has begun, after which no boundary is evaluated and no instant is taken (R42; log 63). -/
def State.measuring (s : State) : Bool := s.inSurvey && s.sup.sealing.isNone

/-- Survey time is provisional: the header's state is REJOINING (R10). -/
def State.provisional (s : State) : Bool := s.hdr.state == .rejoining

/-- Survey time counts in RECORDING, REJOINING and CLOSED, and stands in IDLE and PARKED (R9). -/
def State.surveyRuns (s : State) : Bool := s.isRunning && s.hdr.state != .idle

/-- The R151 test of one entry against survey time `t`. -/
def NoteEntry.expireAt (t : Nat) (e : NoteEntry) : NoteEntry :=
  match e.spanEnd with
  | some x => if !e.site && !e.expired && x ≤ t then { e with expired := true } else e
  | none => e

/-- Sets survey time; the notes table makes its expiry test whenever it changes (R151). -/
def State.setSurvey (s : State) (t phase : Nat) : State :=
  { s with clock := { s.clock with survey := t, phase := phase }, notes := s.notes.map (NoteEntry.expireAt t) }

/-- Lets `d` ticks of the crystal pass (R9; log 2). The expiry test is made at every passing of time, also where survey time
stands at its limit (R151; log 44). -/
def State.pass (s : State) (d : Nat) : State :=
  let s := { s with clock := { s.clock with now := s.clock.now + d } }
  if s.surveyRuns then
    s.setSurvey (min (s.clock.survey + (s.clock.phase + d) / Config.ticksPerMs) Config.surveyMax)
      ((s.clock.phase + d) % Config.ticksPerMs)
  else s

/-- Lets time pass up to the crystal time `t`, where that lies ahead: a timer's expiry comes at its time (log 4). -/
def State.passTo (s : State) (t : Nat) : State := if s.clock.now < t then s.pass (t - s.clock.now) else s

/-- Lets time pass until survey time reads at least `t` (R8, R151; log 4). -/
def State.passToSurvey (s : State) (t : Nat) : State :=
  if s.clock.survey < t then s.pass ((t - s.clock.survey) * Config.ticksPerMs - s.clock.phase) else s

/-- With no command waiting, a millisecond of the crystal passes in a part that has supply (log 1). -/
def State.tick (s : State) : State := if s.mode = .off then s else s.pass Config.ticksPerMs

/-- A number of milliseconds in ticks. -/
def ms (n : Nat) : Nat := n * Config.ticksPerMs

/-- Crystal time `n` ms ahead. -/
def State.inMs (s : State) (n : Nat) : Nat := s.clock.now + ms n

/-! ## This station -/

/-- The station's own number, 1..14 by its STATION strap; 0 and 15 give none (R2). -/
def State.ownNumber (s : State) : Option Nat :=
  if 1 ≤ s.straps.station.toNat ∧ s.straps.station.toNat ≤ 14 then some s.straps.station.toNat else none

/-- The number this station writes where a rule asks for its number; free where it has none (R2; log 5). -/
def State.stationNo (s : State) : Nat := s.ownNumber.getD (Config.unnumberedStation s.straps.station).toNat

/-- The number of fitted channels (R2). -/
def State.channels (s : State) : Nat := if s.straps.currents then 6 else 3

/-- The samples of the fitted channels, V1 first (R25). -/
def State.fitted (s : State) (x : Samples) : List (BitVec 16) :=
  if s.straps.currents then [x.v1, x.v2, x.v3, x.i1, x.i2, x.i3] else [x.v1, x.v2, x.v3]

/-! ## Codes of R197 -/

/-- The code of a timebase state. -/
def TbState.code : TbState → Nat
  | .stopped => 0 | .locked => 1 | .holdover => 2 | .peer => 3 | .free => 4

/-- The code of an event kind, which is its capture level (R60). -/
def EventKind.code : EventKind → Nat
  | .swell => 1 | .sag => 2 | .interruption => 3

/-- The code of a report kind. -/
def ReportKind.code : ReportKind → Nat
  | .sagList => 1 | .harmonicSummary => 2 | .noteList => 3 | .surveySheet => 4

/-- The report kind of a code, for the four that exist. -/
def ReportKind.ofCode : Nat → Option ReportKind
  | 1 => some .sagList | 2 => some .harmonicSummary | 3 => some .noteList | 4 => some .surveySheet | _ => none

/-! ## The transmit queue (R184 to R186) -/

/-- The priority of a frame kind (R184). -/
def Payload.priority : Payload → Nat
  | .trigger .. => 0
  | .queued .. | .refused .. | .go .. | .taken .. | .held .. | .drop .. => 1
  | .requestAnswer .. | .recordData .. | .stationReport .. => 2
  | .printAsk .. | .printBlock .. => 3
  | .beacon .. => 4

/-- Whether a payload is a BEACON's. -/
def Payload.isBeacon : Payload → Bool
  | .beacon .. => true
  | _ => false

/-- Whether a payload is a TRIGGER's. -/
def Payload.isTrigger : Payload → Bool
  | .trigger .. => true
  | _ => false

/-- Removes the youngest frame of higher priority number than `p` that is not under transmission (R186). -/
def displace (p : Nat) (q : List TxFrame) : Option (List TxFrame) :=
  if q.any (fun f => p < f.payload.priority && !f.sending) then
    some (q.reverse.eraseP fun f => p < f.payload.priority && !f.sending).reverse
  else none

/-- A frame joins a queue of at most 8 (R185, R186). -/
def joinQueue (q : List TxFrame) (f : TxFrame) : List TxFrame :=
  if q.length < 8 then q ++ [f]
  else match displace f.payload.priority q with
    | some q' => q' ++ [f]
    | none => q

/-- A frame is handed to the line interface at crystal time `now`: a MUTED station's is discarded (R190), and a beacon
first removes one still waiting (R186). -/
def Line.handOver (l : Line) (now : Nat) (p : Payload) (addressee : Nat) : Line :=
  if l.muted then l
  else
    let q := if p.isBeacon then l.queue.filter (fun f => !(f.payload.isBeacon && !f.sending)) else l.queue
    { l with queue := joinQueue q { payload := p, addressee := addressee, queuedAt := now, attempts := 0, sending := false,
                                    noRetry := false } }

/-- Withdraws the copies that `which` names: a waiting one is removed, one under transmission is not tried again
(R186). -/
def Line.withdraw (l : Line) (which : Payload → Bool) : Line :=
  { l with queue := (l.queue.filter fun f => !(which f.payload && !f.sending)).map fun f =>
      if which f.payload then { f with noRetry := true } else f }

/-- This station sends a frame. -/
def State.send (s : State) (p : Payload) (addressee : Nat) : State :=
  { s with line := s.line.handOver s.clock.now p addressee }

/-- An answer to a request, in ACCEPTED or another code (R198). -/
def State.answer (s : State) (request code job : Nat) (clamped : Bool) (sender : Nat) : State :=
  s.send (.requestAnswer request code job clamped) sender

/-! ## The roster (R193) and the peer choice (R37) -/

/-- The roster entry of a station. -/
def Line.entryOf (l : Line) (n : Nat) : Option RosterEntry := l.roster.find? fun e => e.station == n

/-- A valid frame from station `n` at crystal time `now`, with its fields when it is a beacon, updates its entry. -/
def Line.refresh (l : Line) (n now : Nat) (b : Option BeaconInfo) : Line :=
  let e := (l.entryOf n).getD { station := n, lastFrame := now, lastBeacon := none, beacon := none }
  let e := { e with lastFrame := now }
  let e := match b with
    | some f => { e with lastBeacon := some now, beacon := some f }
    | none => e
  { l with roster := insertBy (·.station) e (l.roster.filter fun x => x.station != n) }

/-- A beacon counts as fresh for 2000 ms (R193; at 2000 ms it does not, log 11). -/
def RosterEntry.fresh (e : RosterEntry) (now : Nat) : Bool :=
  match e.lastBeacon with
  | some t => now < t + ms 2000
  | none => false

/-- The trackable frequency range of a survey, in mHz (R30). -/
def freqInRange (hz f : Nat) : Bool :=
  if hz = 50 then 42500 ≤ f && f ≤ 57500 else 51000 ≤ f && f ≤ 69000

/-- The trackable period range of a survey, in ticks (R30). -/
def periodInRange (hz p : Nat) : Bool :=
  if hz = 50 then 695652 ≤ p && p ≤ 941176 else 579710 ≤ p && p ≤ 784313

/-- An entry qualifies as a peer source (R37). -/
def RosterEntry.qualifies (e : RosterEntry) (now hz : Nat) : Bool :=
  match e.beacon with
  | some b => b.tbState == TbState.locked.code && e.fresh now && freqInRange hz b.freq
  | none => false

/-- The chosen peer, the lowest-numbered qualifying entry, and its frequency (R37). -/
def State.peerChoice (s : State) : Option (Nat × Nat) :=
  match s.line.roster.find? fun e => e.qualifies s.clock.now s.hdr.params.hz with
  | some e => e.beacon.map fun b => (e.station, b.freq)
  | none => none

/-! ## Taking a received frame (R187 to R189) -/

/-- Frames are received while the part runs (R1), and none is taken while an acceptance is under way (R4). -/
def State.listening (s : State) : Bool := s.isRunning && s.sup.opening.isNone

/-- A conflict of station numbers: MUTED, and the queue emptied (R189, R190). -/
def State.conflict (s : State) : State := { s with line := { s.line with muted := true, queue := [] } }

/-- Whether a frame is addressed to this station: to its own number or to 15 (R188). -/
def State.addressed (s : State) (rx : Rx) : Bool :=
  rx.addressee.toNat == 15 || s.ownNumber == some rx.addressee.toNat

/-- A frame that has reached its end and is valid: sender 15 is discarded (R187), this station's own number goes to the
conflict test (R189), any other sender refreshes the roster, and the frame is taken when addressed here (R188). A frame command
is a frame that this station did not send, also one with its number while a frame of its own is under transmission: that its own
frames show as FRAME_SENT alone is the model's choice of how the line is told (log 67). -/
def State.receive (s : State) (rx : Rx) (b : Option BeaconInfo) (take : State → State) : State :=
  if !s.listening || rx.sender.toNat == 15 then s
  else if s.ownNumber == some rx.sender.toNat then s.conflict
  else
    let s := { s with line := s.line.refresh rx.sender.toNat s.clock.now b }
    if s.addressed rx then take s else s

/-! ## The survey header (R12) -/

/-- A write is handed to the store port. -/
def Store.push (st : Store) (w : StoreWrite) : Store := { st with writes := st.writes ++ [w] }

/-- Survey control writes the header: the checkpoint time is survey time at the write, and the checkpoint timer restarts
(R12). The write keeps the header and the checkpoint time of its handing over, however long it waits and also where it is
repeated (log 54). -/
def State.writeHeader (s : State) : State :=
  let h := { s.hdr with checkpoint := s.clock.survey }
  { s with hdr := h, store := s.store.push (.header h false), ckpt := if s.inSurvey then some (s.inMs 10000) else none }

end Sys2Proof.Machine
end

