-- ==== Sys2Proof/Machine/Store.lean ====
section
/-!
DEFINITION. The record store controller (chapter 7) on its own state: page map, directory, creation, reclamation, pins,
page and system writes, restart reading, format, and the bytes of a record.
-/

namespace Sys2Proof.Machine

/-! ## Page map and directory (R121, R122) -/

/-- The pages that live records own, in directory order. -/
def Store.used (st : Store) : List Nat := st.dir.flatMap fun e => e.img.pages

/-- The page map (R121): a page on the working BAD list is IN USE until it has left its entry's page list (R133). -/
def Store.pageState (st : Store) (p : Nat) : PageState :=
  match st.dir.find? fun e => e.img.pages.contains p with
  | some e => .inUse e.index
  | none => if st.bad.contains p then .bad else .free

/-- The number of BAD pages in the page map (R121, R142): those on the BAD list, but for a page that is still IN USE (R133). -/
def Store.badTotal (st : Store) : Nat := (st.bad.filter fun p => !st.used.contains p).length

/-- The data pages, ascending (R119). -/
def dataPageList : List Nat := (List.range Config.dataPages).map fun i => Config.firstDataPage + i

/-- The FREE pages, ascending (R121). -/
def Store.freePages (st : Store) : List Nat :=
  let used := st.used
  dataPageList.filter fun p => !st.bad.contains p && !used.contains p

/-- The live entry of a record number. Of two live entries with one number, which an emptying write that mismatched twice can
leave, the lower one answers reads and lookups: the model's choice (log 46). -/
def Store.entryOf (st : Store) (r : Nat) : Option Entry := st.dir.find? fun e => e.img.record == r

/-- The lowest-numbered empty entry (R122). -/
def Store.emptyEntry (st : Store) : Option Nat :=
  (List.range Config.dirEntries).find? fun i => !st.dir.any fun e => e.index == i

/-- Changes the entry of a record: of two live entries with its number both change, so that a pin holds both (log 46). -/
def Store.update (st : Store) (r : Nat) (f : Entry → Entry) : Store :=
  { st with dir := st.dir.map fun e => if e.img.record == r then f e else e }

/-- Changes the entry of a number. -/
def Store.updateAt (st : Store) (i : Nat) (f : Entry → Entry) : Store :=
  { st with dir := st.dir.map fun e => if e.index == i then f e else e }

/-! ## Writes of the system region (R120) -/

/-- The fields that a write of a live entry writes: with the shortened page list, where one is due (R136). -/
def Entry.written (e : Entry) : DirImage :=
  match e.keep with
  | some k => { e.img with pages := e.img.pages.take k }
  | none => e.img

/-- What a write of an item writes, from the working copies; none for an entry written empty (R120; log 45). -/
def Store.content (st : Store) : SysItem → Option SysContent
  | .entry i r => (st.dir.find? fun e => e.index == i && some e.img.record == r).map fun e => .entry e.written
  | .bad _ => some (.bad { count := st.badCount, pages := st.bad })
  | .ctl _ => some (.ctl { count := st.ctlCount, last := st.last })

/-- The memory once an item has been written. -/
def Store.written (st : Store) (item : SysItem) : Region :=
  match st.content item with
  | some c => st.nv.put item.address c.cell
  | none => st.nv.erase item.address

/-- The memory when a write of an item left a check that does not agree. -/
def Store.spoilt (st : Store) (item : SysItem) : Region :=
  match st.content item with
  | some c => st.nv.put item.address c.torn
  | none => st.nv.erase item.address

/-- A system write that was cut off or mismatched twice leaves the old contents, contents whose check fails, or the new
ones: a free value (R120; log 7). -/
def Store.tearSys (st : Store) (item : SysItem) : Store :=
  let k := Config.tornWrite st.draws % 3
  { st with nv := if k = 0 then st.nv else if k = 1 then st.spoilt item else st.written item, draws := st.draws + 1 }

/-- The memory once a header has been written to page 0 (R12). -/
def Region.putHeader (nv : Region) (h : Header) : Region := nv.put (headerPage * Config.pageBytes) (SysContent.header h).cell

/-- A header write that was cut off or mismatched twice, in the same way (R12; log 7). -/
def Store.tearHeader (st : Store) (h : Header) : Store :=
  let k := Config.tornWrite st.draws % 3
  { st with nv := if k = 0 then st.nv
                  else if k = 1 then st.nv.put (headerPage * Config.pageBytes) (SysContent.header h).torn
                  else st.nv.putHeader h,
            draws := st.draws + 1 }

/-- The write of one directory entry, for the record it holds. -/
def Store.writeEntry (st : Store) (i : Nat) : Store :=
  st.push (.sys (.entry i ((st.dir.find? fun e => e.index == i).map (·.img.record))) false)

/-- The write of the entry of a record. -/
def Store.writeEntryOf (st : Store) (r : Nat) : Store :=
  match st.entryOf r with
  | some e => st.writeEntry e.index
  | none => st

/-- The write of the BAD list: the write count rises, then copy A and copy B are written. -/
def Store.writeBad (st : Store) : Store :=
  ({ st with badCount := st.badCount + 1 }.push (.sys (.bad false) false)).push (.sys (.bad true) false)

/-- The write of the store control page, in the same way. -/
def Store.writeCtl (st : Store) : Store :=
  ({ st with ctlCount := st.ctlCount + 1 }.push (.sys (.ctl false) false)).push (.sys (.ctl true) false)

/-- Every directory entry is written empty (R139 step 3). -/
def Store.writeEmpty (st : Store) : Store :=
  { st with writes := st.writes ++ (List.range Config.dirEntries).map fun i => .sys (.entry i none) false }

/-! ## Kinds of writes -/

/-- The closing writes of a record have ended: it is SEALED, with the positions it does not keep released, or it is gone (R95,
R134, R136). -/
def Store.closingEnded (st : Store) (r : Nat) : Bool :=
  match st.entryOf r with
  | some e => e.img.sealed && e.keep.isNone
  | none => true

/-- Whether a write is a page write. -/
def StoreWrite.isPage : StoreWrite → Bool
  | .page .. => true
  | _ => false

/-- Whether a write is a system write. -/
def StoreWrite.isSys : StoreWrite → Bool
  | .sys .. => true
  | _ => false

/-- Whether a write is a header write. -/
def StoreWrite.isHeader : StoreWrite → Bool
  | .header .. => true
  | _ => false

/-! ## Leaving the directory (R123, R129, R134) -/

/-- The writes without the page writes of a record. -/
def dropPageWrites (r : Nat) (ws : List StoreWrite) : List StoreWrite :=
  ws.filter fun w => match w with
    | .page r' _ _ _ => r' != r
    | _ => true

/-- A record leaves the directory: its entry is written empty and its pages become FREE. They are FREE, and can be allocated,
as the entry's write is handed over, without waiting for its end: the model's choice (R129, R134; log 56). -/
def Store.remove (st : Store) (e : Entry) : Store :=
  ({ st with dir := st.dir.filter (fun x => x.index != e.index), writes := dropPageWrites e.img.record st.writes }).writeEntry
    e.index

/-- A FILLING record keeps its first `keep` positions and releases the rest at once, as its entry is written: at a preemption,
whose request finds them FREE (R80, R136; log 13). -/
def Store.release (st : Store) (r keep : Nat) : Store :=
  match st.entryOf r with
  | some e =>
    if keep < e.img.pages.length then
      (st.update r fun x => { x with img := { x.img with pages := x.img.pages.take keep } }).writeEntryOf r
    else st
  | none => st

/-- The steps 2 and 3 of the closing writes of R95: a page list longer than `keep` is to be shortened with a write of the
entry, and then the final header page is written. The store, and the writes in their order. -/
def Store.closing (st : Store) (r keep : Nat) (header : List Byte) : Store × List StoreWrite :=
  match st.entryOf r with
  | some e =>
    if keep < e.img.pages.length then
      (st.update r fun x => { x with keep := some keep }, [.sys (.entry e.index (some r)) false, .page r 0 header .seal])
    else (st, [.page r 0 header .seal])
  | none => (st, [.page r 0 header .seal])

/-- The write of an entry has ended: the positions that its page list does not keep become FREE (R136). -/
def Store.released (st : Store) (i : Nat) (r : Option Nat) : Store :=
  { st with dir := st.dir.map fun e =>
      if e.index == i && some e.img.record == r then { e with img := e.written, keep := none } else e }

/-! ## Reclamation (R127 to R129) -/

/-- The order of classes in which records give way (R128). -/
def DirImage.reclaimClass (d : DirImage) : Nat :=
  match d.tag with
  | .interval => 1
  | .waveform => if d.capKind = some .companion then 2 else 3
  | .sag => 4
  | .note => 5

/-- SEALED with pin count 0: reclamation is allowed (R123). -/
def Entry.reclaimable (e : Entry) : Bool := e.img.sealed && e.pins == 0

/-- The candidates of R128: by class, and within a class by record number. -/
def Store.candidates (st : Store) : List Entry :=
  let rising := sortBy (fun e => e.img.record) (st.dir.filter Entry.reclaimable)
  [1, 2, 3, 4, 5].flatMap fun c => rising.filter fun e => e.img.reclaimClass == c

/-- Takes candidates from the head until the FREE pages reach `need` and an entry would be empty (R128). -/
def chooseReclaim (need : Nat) : Nat → Bool → List Entry → Option (List Entry)
  | free, entryOk, cands =>
    if need ≤ free && entryOk then some []
    else match cands with
      | [] => none
      | e :: rest => (chooseReclaim need (free + e.img.pages.length) true rest).map (e :: ·)
  termination_by structural _ _ cands => cands

/-- Reclaims the chosen records in the order chosen (R129). -/
def Store.reclaim (st : Store) (es : List Entry) : Store := es.foldl Store.remove st

/-- How many of the chosen records are SAG SUMMARY records: each raises summaries lost (R129). -/
def sagsAmong (es : List Entry) : Nat := (es.filter fun e => e.img.tag == .sag).length

/-- The records that make room for `req`, or none when it is refused (R126 steps 1 and 2, R127, R128). -/
def Store.makeRoom (st : Store) (quota : Nat) (req : CreateRequest) : Option (List Entry) :=
  let intervals := st.dir.filter fun e => e.img.tag == .interval
  let held := (intervals.map fun e => e.img.pages.length).sum
  if Config.recordMax ≤ st.last then none
  else if req.tag = .interval ∧ quota < held + 1 then
    (sortBy (fun e => e.img.record) (intervals.filter Entry.reclaimable)).head?.map fun e => [e]
  else chooseReclaim req.pages st.freePages.length st.emptyEntry.isSome st.candidates

/-- The new entry of R126 step 4. -/
def newEntry (index record survey : Nat) (req : CreateRequest) (pages : List Nat) : Entry :=
  { index := index
    img := { record := record, tag := req.tag, capKind := req.capKind, sealed := false, outcome := .none, created := survey,
             pages := pages, verified := 0 }
    pins := 0, fails := 0, noteId := req.noteId, keep := none, opened := [] }

/-- Issues a number, fills the lowest empty entry and takes the lowest FREE pages (R126 steps 3 and 4, R124). -/
def Store.issue (st : Store) (survey : Nat) (req : CreateRequest) : Option (Store × Nat) :=
  match st.emptyEntry with
  | none => none
  | some i =>
    let free := st.freePages
    if free.length < req.pages then none
    else
      let r := st.last + 1
      let st := { st with last := r }.writeCtl
      let e := newEntry i r survey req (free.take req.pages)
      some (({ st with dir := insertBy (·.index) e st.dir }).writeEntry i, r)

/-- A creation request: the store, the records reclaimed for it, and the number granted, absent when refused (R126). -/
def Store.create (st : Store) (survey quota : Nat) (req : CreateRequest) : Store × List Entry × Option Nat :=
  match st.makeRoom quota req with
  | none => (st, [], none)
  | some es =>
    match (st.reclaim es).issue survey req with
    | some (st', r) => (st', es, some r)
    | none => (st.reclaim es, es, none)

/-! ## Pins (R131) -/

/-- A pin is granted for a live SEALED record. -/
def Store.canPin (st : Store) (r : Nat) : Bool :=
  match st.entryOf r with
  | some e => e.img.sealed
  | none => false

/-- Raises a record's pin count by one. -/
def Store.pin (st : Store) (r : Nat) : Store := st.update r fun e => { e with pins := e.pins + 1 }

/-- Lowers a record's pin count by one. -/
def Store.unpin (st : Store) (r : Nat) : Store := st.update r fun e => { e with pins := e.pins - 1 }

/-! ## Page writes (R132 to R135) -/

/-- A record becomes SEALED (R135). The write of its entry joins the end of the queue, behind all page writes that wait: the
model's choice (log 68). -/
def Store.seal (st : Store) (r : Nat) : Store :=
  (st.update r fun e => { e with img := { e.img with sealed := true, verified := e.img.pages.length } }).writeEntryOf r

/-- A write of a position not yet verified is verified; the entry of a record of several pages is then written (R132). This
write joins the end of the queue, behind all page writes that wait, those of the same record too, so a loss of supply can leave
pages verified in the system region several pages behind the working copy: the model's choice (log 68). -/
def Store.verify (st : Store) (r pos : Nat) : Store :=
  match st.entryOf r with
  | some e =>
    if e.img.verified = pos then
      let st := st.update r fun x => { x with img := { x.img with verified := pos + 1 } }
      if 1 < e.img.pages.length then st.writeEntryOf r else st
    else st
  | none => st

/-- The bytes of a page write stand in its page. -/
def Store.storePage (st : Store) (r pos : Nat) (bs : List Byte) : Store :=
  match (st.entryOf r).bind fun e => e.img.pages[pos]? with
  | some p => { st with nv := { st.nv with mem := st.nv.mem.writePage p Config.pageBytes bs } }
  | none => st

/-- A page write matched (R132), and what follows it comes next: the rest of the closing writes before the writes that wait
(R95; log 51), or the seal (R135). The header page of an opening or a conversion is remembered: a restart before the entry of the
seal has been written finds the record FILLING, and these values in its header (R97; log 50). -/
def Store.pageMatch (st : Store) (r pos : Nat) (bs : List Byte) (next : PageNext) : Store :=
  let st := { st.storePage r pos bs with retiring := none }.verify r pos
  match next with
  | .more => if pos = 0 then st.update r fun e => { e with opened := bs } else st
  | .close header =>
    let out := st.closing r (pos + 1) header
    { out.1 with writes := out.2 ++ out.1.writes }
  | .seal => st.seal r

/-- The record in an entry fails with STORE ERROR as page `p` at position `pos` is retired (R134): it is removed, or sealed
with the positions before the failed one, the later ones becoming FREE once its entry has been written (R136). -/
def Store.fail (st : Store) (e : Entry) (pos p : Nat) : Store :=
  if e.img.tag = .waveform ∧ 0 < pos then
    let st := st.updateAt e.index fun x =>
      { x with img := { x.img with sealed := true, outcome := .storeError, pages := x.img.pages.filter (· != p) }, keep := some pos }
    { st with writes := dropPageWrites e.img.record st.writes }.writeEntry e.index
  else st.remove e

/-- A page write mismatched (R133 step 1): page `p` joins the working BAD list, whose write goes before all others, and is
retired once a copy of the list has been verified. At the record's first failure the repeat of the write follows; at its second
none does, and the record's other page writes are not made (R96, R134; log 20). -/
def Store.mismatch (st : Store) (e : Entry) (pos p : Nat) (bs : List Byte) (next : PageNext) : Store :=
  let listed := { st with
    bad := insertBy id p (st.bad.filter (· != p)), writes := []
    retiring := some { entry := e.index, position := pos, page := p, second := e.fails != 0, listed := false } }
  let listed := (listed.updateAt e.index fun x => { x with fails := 1 }).writeBad
  { listed with writes := listed.writes ++
      (if e.fails = 0 then .page e.img.record pos bs next :: st.writes else dropPageWrites e.img.record st.writes) }

/-- A replacement page, with the records reclaimed for it: the lowest FREE one, or by reclamation for one page and no entry
(R133 step 3). -/
def Store.replacement (st : Store) : Option (Store × Nat × List Entry) :=
  match chooseReclaim 1 st.freePages.length true st.candidates with
  | some es => (st.reclaim es).freePages.head?.map fun p => (st.reclaim es, p, es)
  | none => none

/-- The replacement takes the retired page's position and becomes IN USE, and the entry is written (R133 step 4). -/
def Store.replace (st : Store) (i pos p : Nat) : Store :=
  (st.updateAt i fun x => { x with img := { x.img with pages := x.img.pages.take pos ++ p :: x.img.pages.drop pos } }).writeEntry i

/-- The page of a failed write leaves its page list and becomes BAD (R133 steps 1 to 4): the store, the entry of a record that
fails, at its second failure or because no replacement can be had (R134), and the records reclaimed for a replacement. The write
of copy B goes on before the write of the entry, and the repeat follows (log 20). -/
def Store.settleRetiring (st : Store) (x : Retiring) : Store × Option Entry × List Entry :=
  let st := st.updateAt x.entry fun e => { e with img := { e.img with pages := e.img.pages.filter (· != x.page) } }
  let settled := { st with retiring := none }
  match st.dir.find? fun e => e.index == x.entry && !e.img.sealed with
  | none => (settled, none, [])
  | some e =>
    let failed := (settled.fail e x.position x.page, some e, [])
    if x.second then failed
    else
      let rest := st.writes.dropWhile StoreWrite.isSys
      match { st with writes := st.writes.takeWhile StoreWrite.isSys }.replacement with
      | some (st', p, es) =>
        let st' := st'.replace x.entry x.position p
        ({ st' with writes := st'.writes ++ rest, retiring := some { x with listed := true } }, none, es)
      | none => failed

/-! ## The write under way -/

/-- A page write is under way on the store port, or the page of a failed write is still to be retired, or the repeat of that
write is still to come (R4, R20; log 26). -/
def Store.pageUnderWay (st : Store) : Bool :=
  st.retiring.isSome || match st.writes with
    | w :: _ => w.isPage
    | [] => false

/-- The first write that `which` names, and the queue without it. -/
def Store.reach (st : Store) (which : StoreWrite → Bool) : Option (StoreWrite × Store) :=
  (st.writes.find? which).map fun w => (w, { st with writes := st.writes.eraseP which })

/-- A system write stands before the first write that `which` names. -/
def Store.awaits (st : Store) (which : StoreWrite → Bool) : Bool :=
  st.writes.any which && ((st.writes.find? fun w => w.isSys || which w).map StoreWrite.isSys).getD false

/-- The first header write finishes: verified, written once more, or page 0 is left as it is (R12). -/
def Store.headerDone (st : Store) (ok : Bool) : Store :=
  match st.reach StoreWrite.isHeader with
  | some (.header h retried, st') =>
    if ok then { st' with nv := st'.nv.putHeader h }
    else if retried then st'.tearHeader h
    else { st' with writes := .header h true :: st'.writes }
  | _ => st

/-- The header page of a WAVEFORM that the system region shows FILLING holds the values of its last verified write with outcome
OPEN, once it has had one (R97, R98, R199; logs 6 and 50). -/
def keepHeader (nv : Region) (e : Entry) : Region :=
  if e.opened.isEmpty then nv
  else match nv.entry e.index with
    | some d =>
      if d.record = e.img.record ∧ d.sealed = false then
        { nv with mem := nv.mem.writePage (d.pages.headD 0) Config.pageBytes e.opened }
      else nv
    | none => nv

/-- A restart or a loss of supply cuts off the write under way, the writes waiting behind it are not made, and the working
copies are lost (R12, R16, R120). The page of a write cut off holds whatever reached it (R132; log 6), but for the header page of
a capture, which keeps its last verified values (R97). -/
def Store.cut (st : Store) : Store :=
  let torn := match st.writes with
    | [] => st
    | .sys item _ :: _ => st.tearSys item
    | .header h _ :: _ => st.tearHeader h
    | .page r pos bs _ :: _ =>
      match (st.entryOf r).bind fun e => e.img.pages[pos]? with
      | some p =>
        { st with nv := { st.nv with mem := st.nv.mem.writePage p (Config.bytesReached st.draws) bs }, draws := st.draws + 1 }
      | none => st
  { nv := st.dir.foldl keepHeader torn.nv, writes := [], bad := [], badCount := 0, last := 0, ctlCount := 0, dir := [],
    retiring := none, draws := torn.draws }

/-! ## Restart, format and a new survey (R4, R137 to R139) -/

/-- The copy with the higher write count of two valid ones, or the one that is valid (R137 step 1). -/
def newer {α : Type} (count : α → Nat) : Option α → Option α → Option α
  | some a, some b => if count a < count b then some b else some a
  | some a, none => some a
  | none, b => b

/-- The BAD list read at a restart. -/
def Region.readBad (nv : Region) : Option BadCopy := newer (·.count) (nv.badCopy false) (nv.badCopy true)

/-- The store control page, read in the same way. -/
def Region.readCtl (nv : Region) : Option CtlCopy := newer (·.count) (nv.ctlCopy false) (nv.ctlCopy true)

/-- An entry that wins a page named by two: the one of the higher record number, and of two with one number the one of the
lower entry number, the model's choice (R137; log 46). -/
def wins (x y : Nat × DirImage) : Bool := x.2.record < y.2.record || (x.2.record == y.2.record && y.1 < x.1)

/-- How many leading positions an entry keeps when pages on the BAD list, or named by an entry that wins them, are lost to
it (R137). Every claim is resolved from the entries as read: a winner that is itself cut before the page does not give it back,
and the page becomes FREE; the model's choice (log 57). -/
def keptPositions (bad : List Nat) (all : List (Nat × DirImage)) (x : Nat × DirImage) : Nat :=
  (x.2.pages.takeWhile fun p => !bad.contains p && !all.any fun y => wins x y && y.2.pages.contains p).length

/-- The live entry read from the system region: pin count 0, failed-write count 0, note id absent (R137 step 3). -/
def readEntry (bad : List Nat) (all : List (Nat × DirImage)) (x : Nat × DirImage) : Option Entry :=
  let keep := keptPositions bad all x
  if keep = 0 then none
  else some { index := x.1, img := { x.2 with pages := x.2.pages.take keep, verified := min x.2.verified keep }, pins := 0,
              fails := 0, noteId := none, keep := none, opened := [] }

/-- The page test: each of the pages is written with zeros, and those of `failing` mismatch and become BAD (R137, R139); a
page that mismatched keeps the bytes it held (log 31). -/
def Store.pageTest (st : Store) (pages failing : List Nat) : Store × Nat :=
  let found := pages.filter fun p => failing.contains p
  let zeroed := pages.filter fun p => !failing.contains p
  ({ st with nv := { st.nv with mem := st.nv.mem.filter fun c => !zeroed.contains (c.1 / Config.pageBytes) },
             bad := found.foldl (fun l p => insertBy id p l) st.bad }, found.length)

/-- The restart reading of R137, with the number of pages the page test found BAD. The entries that lost positions are written
from the lowest on (log 55). Where no copy of the BAD list is valid, the claims to pages are resolved before the page test, which
tests the pages so freed too, and these entries are written before the BAD list: the model's choice (log 64). -/
def Store.readRegion (st : Store) (failing : List Nat) : Store × Nat :=
  let bad := st.nv.readBad
  let badPages := (bad.map BadCopy.pages).getD []
  let ctl := st.nv.readCtl
  let found := st.nv.dir
  let dir := found.filterMap (readEntry badPages found)
  let st := { st with
    bad := badPages
    badCount := (bad.map BadCopy.count).getD 0
    last := found.foldl (fun m x => max m x.2.record) ((ctl.map CtlCopy.last).getD 0)
    ctlCount := (ctl.map CtlCopy.count).getD 0
    dir := dir
    retiring := none }
  let changed := found.filter fun x => (dir.find? fun e => e.index == x.1).map (·.img.pages) != some x.2.pages
  let st := changed.foldl (fun st x => st.writeEntry x.1) st
  if bad.isNone then
    let tested := st.pageTest st.freePages failing
    (tested.1.writeBad, tested.2)
  else (st, 0)

/-- A format, but for the header write (R139), with the number of pages the page test found BAD. -/
def Store.format (st : Store) (failing : List Nat) : Store × Nat :=
  let bad := st.nv.readBad
  let st := { st with
    bad := (bad.map BadCopy.pages).getD []
    badCount := (bad.map BadCopy.count).getD 0
    ctlCount := (st.nv.readCtl.map CtlCopy.count).getD 0
    last := 0
    dir := []
    retiring := none }
  let tested := if bad.isNone then st.pageTest dataPageList failing else (st, 0)
  (tested.1.writeBad.writeEmpty.writeCtl, tested.2)

/-- Stage 2 of R4: the pending page writes are not made, and the store is cleared as a format clears it, without the reading
and testing: the BAD list is written, every page not BAD becomes FREE, every entry is written empty, and the record numbers
begin again (R139). -/
def Store.clear (st : Store) : Store :=
  { st with writes := st.writes.filter (fun w => !w.isPage), dir := [], last := 0,
            retiring := none }.writeBad.writeEmpty.writeCtl

/-- A FILLING entry found at a restart is sealed LOST POWER (R138). -/
def Entry.losePower (e : Entry) : Entry :=
  if e.img.sealed then e
  else { e with img := { e.img with
    sealed := true, outcome := .lostPower,
    pages := if e.img.tag = .waveform then e.img.pages.take (max e.img.verified 1) else e.img.pages } }

/-- Stage 5 of a restart (R138). The entries are written from the lowest on (log 55). The header page of a WAVEFORM shows outcome
OPEN, also where no header was ever verified in it (R98, R199; log 6). -/
def Store.losePower (st : Store) : Store :=
  let filling := st.dir.filter fun e => !e.img.sealed
  let waves := filling.filter fun e => e.img.tag == .waveform
  (filling.map (·.index)).foldl Store.writeEntry { st with
    dir := st.dir.map Entry.losePower
    nv := { st.nv with mem := waves.foldl (fun m e => m.showOpen (e.img.pages.headD 0)) st.nv.mem } }

/-! ## The bytes of a record (R125) -/

/-- The address of the byte at an offset of a record. -/
def DirImage.address (d : DirImage) (o : Nat) : Nat :=
  d.pages.getD (o / Config.pageBytes) 0 * Config.pageBytes + o % Config.pageBytes

/-- `n` bytes of a record from an offset on. -/
def Store.bytes (st : Store) (d : DirImage) (o n : Nat) : List Byte :=
  (List.range n).map fun i => st.nv.mem.read (d.address (o + i))

/-- The number of `n` bytes at an offset of a record (R197). -/
def Store.field (st : Store) (d : DirImage) (o n : Nat) : Nat := fromBytes (st.bytes d o n)

/-- Bit `b` of the byte at an offset of a record. -/
def Store.flag (st : Store) (d : DirImage) (o b : Nat) : Bool := (st.field d o 1).testBit b

/-- The record length (R125). -/
def DirImage.length (d : DirImage) : Nat := Config.pageBytes * d.pages.length

/-- The SEALED records of a tag, in ascending record number. -/
def Store.sealedOf (st : Store) (t : Tag) : List Entry :=
  sortBy (fun e => e.img.record) (st.dir.filter fun e => e.img.tag == t && e.img.sealed)

/-! ## Creation on the part's state -/

/-- The harmonic quota in pages (R3, R127). -/
def Params.quota (p : Params) : Nat := 1920 * p.qh / 100

/-- The reclamation counters rise (R129, R142, R75). -/
def Counters.reclaimed (c : Counters) (es : List Entry) : Counters :=
  { c with recordsReclaimed := satAdd c.recordsReclaimed es.length, summariesLost := satAdd c.summariesLost (sagsAmong es) }

/-- A producer asks for a record (R126). -/
def State.create (s : State) (req : CreateRequest) : State × Option Nat :=
  let out := s.store.create s.clock.survey s.hdr.params.quota req
  ({ s with store := out.1, ctr := s.ctr.reclaimed out.2.1 }, out.2.2)

/-- Asks for a one-page record and hands its page to the store (R71, R115, R150). -/
def State.storeOnePage (s : State) (tag : Tag) (noteId : Option Nat) (bs : List Byte) : State × Option Nat :=
  let out := s.create { tag := tag, capKind := none, noteId := noteId, pages := 1 }
  match out.2 with
  | some r => ({ out.1 with store := out.1.store.push (.page r 0 bs .seal) }, some r)
  | none => out

end Sys2Proof.Machine
end

