-- ==== Sys2Proof/Machine/Capture.lean ====
section
/-!
DEFINITION. The capture unit (chapter 5): the pre-trigger ring, capture windows and pages, slots and preemption, own and
companion requests, conversion and sealing.
-/

namespace Sys2Proof.Machine

/-- The post instants of a whole capture (R77). -/
def postInstants : Nat := 2048

/-- The bytes of one instant: each sample in 2 bytes, in channel order (R199). -/
def instantBytes (xs : List (BitVec 16)) : List Byte := xs.flatMap fun x => beBytes 2 x.toNat

/-- The pages a capture needs: the header page and the data pages of its planned instants (R77). -/
def plannedPages (pre channels : Nat) : Nat := 1 + ((pre + postInstants) * (2 * channels) + 1023) / 1024

/-- A RUNNING slot holds a capture that is taking post instants (R78): one that has taken its 2048th is at its end. -/
def Slot.running (sl : Slot) : Bool := !sl.closing && sl.post < postInstants

/-- The instants a capture holds (R98). -/
def Slot.instants (sl : Slot) : Nat := sl.pre + sl.post

/-- The code of an outcome in the header page (R199). -/
def CapOutcome.code : CapOutcome → Nat
  | .opened => 0 | .complete => 1 | .truncated => 2 | .cut => 3 | .supply => 4

/-- The header page of a WAVEFORM record (R98, R199). -/
def Slot.headerBytes (sl : Slot) (channels : Nat) : List Byte :=
  beBytes 1 2 ++ beBytes 1 sl.kind.code ++ beBytes 1 sl.station ++ beBytes 1 sl.level ++ beBytes 2 sl.seq ++
    beBytes 1 sl.outcome.code ++ beBytes 1 (flagByte [sl.late, sl.converted, sl.unsure]) ++ beBytes 4 sl.originStart ++
    beBytes 4 sl.opened ++ beBytes 2 sl.pre ++ beBytes 2 sl.instants ++ beBytes 1 sl.tb.code ++ beBytes 1 channels ++
    beBytes 4 sl.period ++ beBytes 2 sl.lag ++ beBytes 2 sl.offset

/-- Hands the full pages of a capture's held bytes to the store, at most `fuel` of them (R83). -/
def fillPages : Nat → Slot → Store → Slot × Store
  | 0, sl, st => (sl, st)
  | fuel + 1, sl, st =>
    if Config.pageBytes ≤ sl.buf.length then
      fillPages fuel { sl with buf := sl.buf.drop Config.pageBytes, nextPos := sl.nextPos + 1 }
        (st.push (.page sl.record sl.nextPos (sl.buf.take Config.pageBytes) .more))
    else (sl, st)

/-- A capture takes one instant as its next post instant (R83). -/
def Slot.take (sl : Slot) (xs : List (BitVec 16)) (st : Store) : Slot × Store :=
  fillPages 1 { sl with post := sl.post + 1, buf := sl.buf ++ instantBytes xs } st

/-- The captures take one instant, slot by slot. -/
def takeSlots (xs : List (BitVec 16)) : List Slot → Store → List Slot × Store
  | [], st => ([], st)
  | sl :: rest, st =>
    let here := if sl.running then sl.take xs st else (sl, st)
    let out := takeSlots xs rest here.2
    (here.1 :: out.1, out.2)

/-- The capture unit takes one instant: the ring (R76) and the RUNNING captures (R83), the lowest slot first (log 55). -/
def State.captureInstant (s : State) (xs : List (BitVec 16)) : State :=
  let out := takeSlots xs s.cap.slots s.store
  { s with cap := { ring := pushBounded 512 s.cap.ring xs, slots := out.1 }, store := out.2 }

/-! ## Sealing (R80, R94, R95) -/

/-- The closing writes of a capture sealed COMPLETE, CUT or SUPPLY (R95): the partly filled data page, which the release of
the positions beyond it and the final header page follow once it is verified, or those two at once where no page is partly
filled. -/
def Slot.closingWrites (sl : Slot) (channels : Nat) (st : Store) : Store :=
  if sl.buf.isEmpty then
    let out := st.closing sl.record sl.nextPos (sl.headerBytes channels)
    { out.1 with writes := out.1.writes ++ out.2 }
  else st.push (.page sl.record sl.nextPos sl.buf (.close (sl.headerBytes channels)))

/-- The closing writes of a capture sealed TRUNCATED (R80, R95): its unwritten pages are FREE at once (R136; log 13). -/
def Slot.truncatedWrites (sl : Slot) (channels : Nat) (st : Store) : Store :=
  let st := if sl.buf.isEmpty then st else st.push (.page sl.record sl.nextPos sl.buf .more)
  let st := st.release sl.record (if sl.buf.isEmpty then sl.nextPos else sl.nextPos + 1)
  st.push (.page sl.record 0 (sl.headerBytes channels) .seal)

/-- A capture at its seal: CLOSING, with its outcome, and TIME UNSURE when it is sealed while REJOINING (R98). -/
def Slot.sealed (sl : Slot) (outcome : CapOutcome) (unsure : Bool) : Slot :=
  { sl with closing := true, outcome := outcome, unsure := sl.unsure || unsure }

/-- Seals the capture of one slot, which becomes CLOSING (R95). -/
def State.sealSlot (s : State) (sl : Slot) (outcome : CapOutcome) : State :=
  let sl' := sl.sealed outcome s.provisional
  { s with cap := { s.cap with slots := s.cap.slots.map fun x => if x.num == sl.num then { sl' with buf := [] } else x },
           store := sl'.closingWrites s.channels s.store }

/-- At a close or on parking every RUNNING capture is sealed; one that has taken its 2048th instant is sealed COMPLETE
(R94). The lowest slot is sealed first (log 55). -/
def State.sealCaptures (s : State) (outcome : CapOutcome) : State :=
  (s.cap.slots.filter fun sl => !sl.closing).foldl
    (fun s sl => s.sealSlot sl (if sl.running then outcome else .complete)) s

/-- The records of the RUNNING captures, which a close or parking seals with its own outcome (R94). -/
def Capture.runningRecords (c : Capture) : List Nat := (c.slots.filter Slot.running).map (·.record)

/-- A RUNNING capture is preempted: sealed TRUNCATED, its slot given up, and counted (R80). -/
def State.truncate (s : State) (sl : Slot) : State :=
  { s with cap := { s.cap with slots := s.cap.slots.filter fun x => x.num != sl.num },
           store := (sl.sealed .truncated s.provisional).truncatedWrites s.channels s.store,
           ctr := { s.ctr with capturesTruncated := satAdd s.ctr.capturesTruncated 1 } }

/-! ## Opening (R79 to R82) -/

/-- A capture request (R79, R91). -/
structure CapRequest where
  kind        : CapKind
  level       : Nat
  station     : Nat
  seq         : Nat
  originStart : Nat
  late        : Bool
  lag         : Nat
  deriving DecidableEq, Repr

/-- The lowest-numbered FREE slot (R78). -/
def freeSlot (slots : List Slot) : Option Nat := [1, 2, 3].find? fun n => !slots.any fun sl => sl.num == n

/-- The capture that a request of `level` preempts: RUNNING, of lower level, the lowest level first and of these the
earliest opened (R79). Record numbers rise with the opening. -/
def preemptable (slots : List Slot) (level : Nat) : Option Slot :=
  (sortBy (·.level) (sortBy (·.record) (slots.filter fun sl => sl.running && sl.level < level))).head?

/-- Finds a slot for a request of `level`, preempting where needed (R79, R80). -/
def State.findSlot (s : State) (level : Nat) : Option (State × Nat) :=
  match freeSlot s.cap.slots with
  | some n => some (s, n)
  | none => (preemptable s.cap.slots level).map fun sl => (s.truncate sl, sl.num)

/-- The slot of a capture that opens in slot `n` as record `r`, holding the ring's instants (R77, R82). -/
def State.newSlot (s : State) (q : CapRequest) (n r : Nat) : Slot :=
  { num := n, closing := false, kind := q.kind, level := q.level, station := q.station, seq := q.seq, opened := s.clock.survey,
    originStart := q.originStart, pre := s.cap.ring.length, post := 0, record := r, tb := s.tb.state, period := s.tb.period,
    late := q.late, lag := q.lag, converted := false, offset := 0, outcome := .opened, unsure := s.provisional,
    buf := s.cap.ring.flatMap instantBytes, nextPos := 1 }

/-- A slot takes its place among the slots. -/
def putSlot (slots : List Slot) (sl : Slot) : List Slot := insertBy (·.num) sl (slots.filter fun x => x.num != sl.num)

/-- A capture opens, or the request is refused (R79 to R82): the record number, absent on a refusal. -/
def State.openCapture (s : State) (q : CapRequest) : State × Option Nat :=
  match s.findSlot q.level with
  | none => (s, none)
  | some (s, n) =>
    let made := s.create { tag := .waveform, capKind := some q.kind, noteId := none,
                           pages := plannedPages s.cap.ring.length s.channels }
    match made.2 with
    | none => made
    | some r =>
      let s := made.1
      let sl := s.newSlot q n r
      let out := fillPages 6 sl (s.store.push (.page r 0 (sl.headerBytes s.channels) .more))
      ({ s with cap := { s.cap with slots := putSlot s.cap.slots out.1 }, store := out.2 }, some r)

/-! ## Companions, conversion and level rises (R84 to R86, R91) -/

/-- The RUNNING companions, in the order in which they opened. -/
def State.companions (s : State) : List Slot :=
  sortBy (·.record) (s.cap.slots.filter fun sl => sl.running && sl.kind == .companion)

/-- A companion is converted into the own capture of the event that has just opened (R86). The rewritten header keeps the
instants recorded that the opening wrote (R98; log 43), and the entry with the new capture kind is written before it (R122;
log 55). -/
def State.convert (s : State) (sl : Slot) (seq level start : Nat) : State :=
  let sl' := { sl with kind := .own, level := level, station := s.stationNo, seq := seq, originStart := start, converted := true,
                       offset := sl.post }
  let st := (s.store.update sl.record fun e => { e with img := { e.img with capKind := some .own } }).writeEntryOf sl.record
  { s with cap := { s.cap with slots := s.cap.slots.map fun x => if x.num == sl.num then sl' else x },
           store := st.push (.page sl.record 0 (({ sl' with post := 0 } : Slot).headerBytes s.channels) .more) }

/-- A fresh own capture; a refusal counts a capture without waveform (R81, R85 step 3). -/
def State.requestFresh (s : State) (seq level start : Nat) : State × Option Nat :=
  let out := s.openCapture { kind := .own, level := level, station := s.stationNo, seq := seq, originStart := start,
                             late := false, lag := 0 }
  match out.2 with
  | some r => (out.1, some r)
  | none => ({ out.1 with ctr := { out.1.ctr with capturesNoWave := satAdd out.1.ctr.capturesNoWave 1 } }, none)

/-- The own capture request, after the offers of R85 step 1: the newest companion is converted when it has taken at most
1024 post instants, or else a fresh own capture is asked for (R85 steps 2 and 3, R81). -/
def State.requestOwn (s : State) (seq level start : Nat) : State × Option Nat :=
  match s.companions.getLast? with
  | some sl => if sl.post ≤ 1024 then (s.convert sl seq level start, some sl.record) else s.requestFresh seq level start
  | none => s.requestFresh seq level start

/-- A rise of the event's kind raises the level of its RUNNING capture (R84). -/
def State.raiseLevel (s : State) (seq level : Nat) : State :=
  { s with cap := { s.cap with slots := s.cap.slots.map fun sl =>
      if sl.running && sl.kind == .own && sl.station == s.stationNo && sl.seq == seq then { sl with level := level } else sl } }

/-- The lag of a companion and whether it is LATE (R92). -/
def lagOf (hz survey start : Nat) : Nat × Bool := (min (survey - start) 65535, (if hz = 50 then 60 else 50) < survey - start)

/-- A companion request (R91), granted and counted, or refused and counted (R81). -/
def State.requestCompanion (s : State) (station seq start : Nat) : State :=
  let l := lagOf s.hdr.params.hz s.clock.survey start
  let out := s.openCapture { kind := .companion, level := 0, station := station, seq := seq, originStart := start,
                             late := l.2, lag := l.1 }
  match out.2 with
  | some _ => { out.1 with ctr := { out.1.ctr with companionsOpened := satAdd out.1.ctr.companionsOpened 1 } }
  | none => { out.1 with ctr := { out.1.ctr with companionsMissed := satAdd out.1.ctr.companionsMissed 1 } }

end Sys2Proof.Machine
end

