-- ==== Sys2Proof/Machine/Level.lean ====
section
/-!
DEFINITION. The level monitor (chapter 3) on its own state: windows, the arithmetic from samples to level, the channel
states with hysteresis, and the boundary report.
-/

namespace Sys2Proof.Machine

/-- A clipped sample (Introduction, Samples and instants). -/
def isClipped (x : Int) : Bool := x == -32768 || x == 32767

/-- The square of a sample. -/
def square (x : Int) : Nat := x.natAbs * x.natAbs

/-- A channel takes the sample of one instant (R43). -/
def Chan.take (c : Chan) (x : Int) : Chan :=
  match c.window with
  | o :: rest =>
    if 128 ≤ c.window.length then
      { c with window := rest ++ [x], sumSq := c.sumSq - square o + square x,
               clips := c.clips - (isClipped o).toNat + (isClipped x).toNat }
    else { c with window := c.window ++ [x], sumSq := c.sumSq + square x, clips := c.clips + (isClipped x).toNat }
  | [] => { c with window := [x], sumSq := c.sumSq + square x, clips := c.clips + (isClipped x).toNat }

/-- The level monitor takes one instant (R43). -/
def Level.take (l : Level) (xs : List Int) : Level :=
  { l with chans := List.zipWith Chan.take l.chans xs, count := min (l.count + 1) 128 }

/-- The RMS of a window in sixteenths of a count, from its sum of squares (R46, R47). -/
def rmsOf (sumSq : Nat) : Nat := isqrt (sumSq / 128 * 256)

/-- The relative level, in lu (R48). -/
def levelOf (un rq : Nat) : Nat := min (rq * 10000 / (64 * un)) 65535

/-- The new state of a channel that was NORMAL (R50). -/
def fromNormal (p : Params) (l : Nat) : ChState :=
  if l < p.ti then .interrupted else if l < p.ts then .sagged else if l ≤ p.tw then .normal else .swollen

/-- The new state of a voltage channel (R50 to R52). -/
def nextChState (p : Params) (st : ChState) (l : Nat) : ChState :=
  match st with
  | .normal => fromNormal p l
  | .sagged =>
    if l < p.ti then .interrupted else if l < p.ts + p.h then .sagged else if l ≤ p.tw then .normal else .swollen
  | .interrupted =>
    if l < p.ti + p.h then .interrupted else if l < p.ts + p.h then .sagged else if l ≤ p.tw then .normal else .swollen
  | .swollen => if p.tw - p.h < l then .swollen else fromNormal p l

/-- A fitted channel is evaluated (R46, R47, R49, R53). -/
def Chan.evaluate (c : Chan) : Chan := { c with rq := some (rmsOf c.sumSq), clipped := 0 < c.clips }

/-- One voltage channel of a boundary report (R54). -/
structure VoltReport where
  level   : Nat
  before  : ChState
  after   : ChState
  clipped : Bool
  deriving DecidableEq, Repr

/-- One current channel of a boundary report (R54). -/
structure CurrentReport where
  rq      : Nat
  clipped : Bool
  deriving DecidableEq, Repr

/-- The boundary report (R54). -/
structure BoundaryReport where
  time     : Nat
  volts    : List VoltReport
  currents : List CurrentReport
  deriving DecidableEq, Repr

/-- One voltage channel is evaluated and classified (R48, R50 to R52). -/
def reportVolt (p : Params) (c : Chan) (v : Volt) : VoltReport :=
  let l := levelOf p.un (rmsOf c.sumSq)
  { level := l, before := v.st, after := nextChState p v.st l, clipped := 0 < c.clips }

/-- The report of a boundary, at survey time `t` (R54). -/
def Level.report (l : Level) (p : Params) (t : Nat) : BoundaryReport :=
  { time := t
    volts := List.zipWith (reportVolt p) (l.chans.take 3) l.volts
    currents := (l.chans.drop 3).map fun c => { rq := rmsOf c.sumSq, clipped := 0 < c.clips } }

/-- The level monitor after an evaluated boundary (R41, R45). -/
def Level.evaluate (l : Level) (r : BoundaryReport) : Level :=
  { l with chans := l.chans.map Chan.evaluate, volts := r.volts.map fun v => { level := some v.level, st := v.after } }

/-- A boundary is marked at index 63 or 127 and evaluated once 128 samples are held (R44). -/
def boundaryDue (index count : Nat) : Bool := (index == 63 || index == 127) && count == 128

end Sys2Proof.Machine
end

