-- ==== Sys2Proof/Machine/Notes.lean ====
section
/-!
DEFINITION. The notes table (chapter 8): repeats, entries, eviction, corrections, the NOTE record, attachment and the
rebuild at a restart.
-/

namespace Sys2Proof.Machine

/-- A note as the table applies it: of a frame taken now, or of a record at a rebuild (R144, R153). -/
structure Note where
  id       : Nat
  kind     : Nat
  span     : Nat
  corrects : Nat
  received : Nat
  text     : List Byte
  deriving DecidableEq, Repr

/-- The end of a span that begins at `t` (R147, R149). -/
def spanEndOf (t span : Nat) : Nat := min (t + 60000 * span) Config.surveyMax

/-- The entry of a new SITE or OBSERVATION note, with its record number still absent (R146, R147). -/
def Note.entry (n : Note) : NoteEntry :=
  { id := n.id, site := n.kind == 1, text := n.text, received := n.received,
    spanEnd := if n.kind = 2 ∧ 0 < n.span then some (spanEndOf n.received n.span) else none,
    expired := false, lastCorr := none, record := none }

/-- Eviction from a full table: the oldest EXPIRED entry, or else the oldest ACTIVE OBSERVATION, which counts as expired
early (R148). -/
def evict (t : List NoteEntry) : List NoteEntry × Nat :=
  if t.any (·.expired) then (t.eraseP (·.expired), 0)
  else if t.any (fun e => !e.site) then (t.eraseP (fun e => !e.site), 1)
  else (t, 0)

/-- A new entry joins at the end: a fifth SITE entry replaces the oldest SITE entry, a full table evicts (R146 to R148).
The number counts notes expired early. -/
def joinNotes (t : List NoteEntry) (e : NoteEntry) : List NoteEntry × Nat :=
  if e.site && 4 ≤ (t.filter (·.site)).length then (t.eraseP (·.site) ++ [e], 0)
  else if t.length < 32 then (t ++ [e], 0)
  else ((evict t).1 ++ [e], (evict t).2)

/-- The effect of a CORRECTION on its target (R149). -/
def NoteEntry.correct (e : NoteEntry) (n : Note) : NoteEntry :=
  let e := { e with text := n.text, lastCorr := some n.id }
  if e.site || e.expired then e
  else if n.span = 0 then { e with expired := true, spanEnd := some n.received }
  else { e with spanEnd := some (spanEndOf n.received n.span) }

/-- A note is applied to the table (R146 to R149); the number counts notes expired early. -/
def applyNote (t : List NoteEntry) (n : Note) : List NoteEntry × Nat :=
  if n.kind = 3 then (t.map fun e => if e.id == n.corrects then e.correct n else e, 0) else joinNotes t n.entry

/-- The ids of live NOTE records not sealed LOST POWER: read from a SEALED record, given at creation for a FILLING one
(R145). -/
def Store.noteIds (st : Store) : List Nat :=
  (st.dir.filter fun e => e.img.tag == .note && e.img.outcome != .lostPower).filterMap fun e =>
    if e.img.sealed then some (st.field e.img 4 2) else e.noteId

/-- The repeat test (R145). -/
def State.knownNote (s : State) (id : Nat) : Bool :=
  s.notes.any (fun e => e.id == id || e.lastCorr == some id) || s.store.noteIds.contains id

/-- The page of a NOTE record (R150, R199). -/
def noteBytes (n : Note) (scope : Nat) (unsure : Bool) : List Byte :=
  beBytes 1 4 ++ beBytes 1 n.kind ++ beBytes 1 scope ++ beBytes 1 n.span ++ beBytes 2 n.id ++
    beBytes 2 (if n.kind = 3 then n.corrects else 0) ++ beBytes 4 n.received ++ beBytes 1 (flagByte [unsure]) ++
    beBytes 1 n.text.length ++ n.text

/-- The record number granted is written into the entry of the note (R150). -/
def setNoteRecord (t : List NoteEntry) (id : Nat) (r : Option Nat) : List NoteEntry :=
  t.map fun e => if e.id == id then { e with record := r } else e

/-- A note that is taken and is not a repeat changes the table, and its record is asked for (R146 to R150). -/
def State.takeNote (s : State) (n : Note) (scope : Nat) : State :=
  let out := applyNote s.notes n
  let s := { s with notes := out.1, ctr := { s.ctr with notesExpiredEarly := satAdd s.ctr.notesExpiredEarly out.2 } }
  let made := s.storeOnePage .note (some n.id) (noteBytes n scope s.provisional)
  if n.kind = 3 then made.1 else { made.1 with notes := setNoteRecord made.1.notes n.id made.2 }

/-- An OBSERVATION entry qualifies for a record's span at survey time `now` (R152). -/
def NoteEntry.attaches (now start stop : Nat) (e : NoteEntry) : Bool :=
  !e.site && e.received ≤ stop && start ≤ (if e.expired then e.spanEnd.getD now else now)

/-- The ids to attach: of the qualifying entries the 4 latest, in order of receipt (R152). -/
def State.attach (s : State) (start stop : Nat) : List Nat :=
  (lastOf 4 (s.notes.filter (NoteEntry.attaches s.clock.survey start stop))).map (·.id)

/-- The note a NOTE record holds (R153, R199). -/
def Store.noteOf (st : Store) (d : DirImage) : Note :=
  { id := st.field d 4 2, kind := st.field d 1 1, span := st.field d 3 1, corrects := st.field d 6 2,
    received := st.field d 8 4, text := st.bytes d 14 (st.field d 13 1) }

/-- One record is applied at a rebuild: no repeat test, no record, and no counter; the record number goes into the entry it
makes, which has none yet (R153). Of two live records of one id each makes its entry, as no repeat test is made: the model's
choice between this and R143 (log 65). -/
def rebuildOne (st : Store) (t : List NoteEntry) (e : Entry) : List NoteEntry :=
  let n := st.noteOf e.img
  (applyNote t n).1.map fun x => if n.kind ≠ 3 ∧ x.id = n.id ∧ x.record.isNone then { x with record := some e.img.record } else x

/-- The table rebuilt from the newest 32 NOTE records and tested against the checkpoint time (R153). -/
def Store.rebuildNotes (st : Store) (checkpoint : Nat) : List NoteEntry :=
  let records := (st.sealedOf .note).filter fun e => e.img.outcome != .lostPower
  ((lastOf 32 records).foldl (rebuildOne st) []).map (NoteEntry.expireAt checkpoint)

end Sys2Proof.Machine
end

