-- ==== Sys2Proof/Machine/Event.lean ====
section
/-!
DEFINITION. The event unit (chapter 4): the own event from its opening to its seal, the related-origins list, and the SAG
SUMMARY record.
-/

namespace Sys2Proof.Machine

/-- The rank of a channel state as an event kind; NORMAL has none (R62). -/
def ChState.kind : ChState → Option EventKind
  | .normal => none
  | .swollen => some .swell
  | .sagged => some .sag
  | .interrupted => some .interruption

/-- The worse of two kinds (R62). -/
def EventKind.worse (a b : EventKind) : EventKind := if a.code < b.code then b else a

/-- The worst kind among the voltage channels after a boundary, absent when all are NORMAL (R59, R62). -/
def BoundaryReport.worst (r : BoundaryReport) : Option EventKind :=
  r.volts.foldl (fun w v => match w, v.after.kind with
    | some a, some b => some (a.worse b)
    | some a, none => some a
    | none, k => k) none

/-- The voltage channels of a report with their numbers 1..3. -/
def BoundaryReport.numbered (r : BoundaryReport) : List (Nat × VoltReport) := List.zip [1, 2, 3] r.volts

/-- The residual after one channel's window: a strictly lower level replaces it (R63). -/
def lower (res : Option (Nat × Nat)) (cv : Nat × VoltReport) : Option (Nat × Nat) :=
  if cv.2.after = .sagged ∨ cv.2.after = .interrupted then
    match res with
    | some (l, c) => if cv.2.level < l then some (cv.2.level, cv.1) else some (l, c)
    | none => some (cv.2.level, cv.1)
  else res

/-- The maximum level after one channel's window: a strictly greater level replaces it (R63). -/
def higher (mx : Option (Nat × Nat)) (cv : Nat × VoltReport) : Option (Nat × Nat) :=
  if cv.2.after = .swollen then
    match mx with
    | some (l, c) => if l < cv.2.level then some (cv.2.level, cv.1) else some (l, c)
    | none => some (cv.2.level, cv.1)
  else mx

/-- Any fitted channel's window of the boundary was clipped (R64). -/
def BoundaryReport.clipped (r : BoundaryReport) : Bool := r.volts.any (·.clipped) || r.currents.any (·.clipped)

/-- An event's fields brought up to date from a boundary of the event whose worst kind is `k` (R61 to R65). -/
def OpenEvent.gather (e : OpenEvent) (r : BoundaryReport) (k : EventKind) : OpenEvent :=
  { e with
    kind := e.kind.worse k
    involved := [1, 2, 3].filter fun c =>
      e.involved.contains c || r.numbered.any fun cv => cv.1 == c && cv.2.after != .normal
    residual := r.numbered.foldl lower e.residual
    maximum := r.numbered.foldl higher e.maximum
    clipped := e.clipped || r.clipped
    peaks := if e.duration = 0 then r.currents.map (·.rq) else List.zipWith max e.peaks (r.currents.map (·.rq))
    duration := min (e.duration + 1) 65535
    saturated := e.saturated || e.duration == 65535 }

/-- The event counter's next value (R59). -/
def nextSeq (n : Nat) : Nat := if n = 65535 then 1 else n + 1

/-- An event before its opening boundary is gathered (R58). -/
def blankEvent (seq start : Nat) (tb : TbState) (k : EventKind) (unsure : Bool) : OpenEvent :=
  { seq := seq, start := start, tb := tb, kind := k, involved := [], residual := none, maximum := none, clipped := false,
    peaks := [], duration := 0, saturated := false, related := [], link := none, unsure := unsure }

/-- An origin pair is offered to the open event's related list (R66). -/
def State.offer (s : State) (pair : Nat × Nat) : State :=
  match s.ev.event with
  | none => s
  | some e =>
    if e.related.contains pair then s
    else if e.related.length < 4 then { s with ev := { s.ev with event := some { e with related := e.related ++ [pair] } } }
    else { s with ctr := { s.ctr with companionsMissed := satAdd s.ctr.companionsMissed 1 } }

/-- The capture unit's answer sets the waveform link (R67). -/
def State.setLink (s : State) (link : Option Nat) : State :=
  { s with ev := { s.ev with event := s.ev.event.map fun e => { e with link := link } } }

/-- An own event opens at a boundary taken in timebase state `tb` (R59, R60). -/
def State.openEvent (s : State) (r : BoundaryReport) (tb : TbState) (k : EventKind) : State :=
  let seq := s.ev.seq
  let e := (blankEvent seq r.time tb k s.provisional).gather r k
  let s := { s with ev := { event := some e, seq := nextSeq seq }, ctr := { s.ctr with events := satAdd s.ctr.events 1 } }
  let s := s.companions.foldl (fun s sl => s.offer (sl.station, sl.seq)) s
  let out := s.requestOwn seq k.code r.time
  let s := out.1.setLink out.2
  if s.hdr.params.send then s.send (.trigger s.hdr.number seq k.code r.time) 15 else s

/-- The page of a SAG SUMMARY (R73, R199). -/
def OpenEvent.bytes (e : OpenEvent) (station channels outcome stop : Nat) (unsure : Bool) (notes : List Nat) : List Byte :=
  let pairs := e.related.flatMap fun p => beBytes 1 p.1 ++ beBytes 2 p.2
  let ids := notes.flatMap (beBytes 2)
  beBytes 1 1 ++ beBytes 1 station ++ beBytes 2 e.seq ++ beBytes 1 e.kind.code ++ beBytes 1 outcome ++
    beBytes 1 (flagByte [e.saturated, e.clipped, unsure]) ++
    beBytes 1 (flagByte [e.involved.contains 1, e.involved.contains 2, e.involved.contains 3]) ++ beBytes 4 e.start ++
    beBytes 4 stop ++ beBytes 1 e.tb.code ++ beBytes 1 channels ++ beBytes 2 e.duration ++
    beBytes 1 ((e.residual.map (·.2)).getD 0) ++ beBytes 1 ((e.maximum.map (·.2)).getD 0) ++
    beBytes 2 ((e.residual.map (·.1)).getD 0) ++ beBytes 2 ((e.maximum.map (·.1)).getD 0) ++ beBytes 4 (e.link.getD 0) ++
    (if channels = 6 then e.peaks.flatMap (beBytes 4) else List.replicate 12 0) ++ beBytes 1 e.related.length ++ pairs ++
    List.replicate (12 - pairs.length) 0 ++ beBytes 1 notes.length ++ ids ++ List.replicate (8 - ids.length) 0

/-- The open event, if any, is sealed with an outcome (1 ENDED, 2 CUT, 3 SUPPLY) and an end time (R68, R71). -/
def State.sealEvent (s : State) (outcome stop : Nat) : State :=
  match s.ev.event with
  | none => s
  | some e =>
    let page := e.bytes s.stationNo s.channels outcome stop (e.unsure || s.provisional) (s.attach e.start stop)
    let out := { s with ev := { s.ev with event := none } }.storeOnePage .sag none page
    match out.2 with
    | some _ => out.1
    | none => { out.1 with ctr := { out.1.ctr with summariesLost := satAdd out.1.ctr.summariesLost 1 } }

/-- The event unit takes a boundary report (R59, R61, R62, R69). -/
def State.takeReport (s : State) (r : BoundaryReport) (tb : TbState) : State :=
  match s.ev.event, r.worst with
  | none, none => s
  | none, some k => s.openEvent r tb k
  | some _, none => s.sealEvent 1 r.time
  | some e, some k =>
    let e' := e.gather r k
    let s := { s with ev := { s.ev with event := some e' } }
    if e.kind.code < e'.kind.code then s.raiseLevel e.seq e'.kind.code else s

/-! ## TRIGGER (R89 to R93) -/

/-- A TRIGGER is handed to the capture unit, or ignored (R89 to R91), also where a close has stopped that unit (log 63). -/
def State.takeTrigger (s : State) (station : Nat) (f : TriggerFrame) : State :=
  if s.measuring && f.number.toNat == s.hdr.number && s.hdr.params.accept then
    if s.ev.event.isSome then s.offer (station, f.seq.toNat)
    else if s.companions.any (fun sl => sl.station == station) then s
    else s.requestCompanion station f.seq.toNat f.start.toNat
  else s

/-- A TRIGGER is received (R89, R188). -/
def State.hearTrigger (s : State) (rx : Rx) (f : TriggerFrame) : State :=
  s.receive rx none fun s => s.takeTrigger rx.sender.toNat f

/-- The TRIGGER that reaches the part during an instant, if any (R93; log 69). -/
def State.hearBetween (s : State) : Option (Rx × TriggerFrame) → State
  | some (rx, f) => s.hearTrigger rx f
  | none => s

end Sys2Proof.Machine
end

