-- ==== Sys2Proof/Machine/Timebase.lean ====
section
/-!
DEFINITION. The timebase unit (chapter 2) on its own state: pacing, the sample index, rising crossings, acquisition, the
LOCKED, HOLDOVER and PEER rules, the reference move and the published frequency.
-/

namespace Sys2Proof.Machine

/-- What a change of the timebase hands to the harmonic analyser: nothing, the judgement of the cycle just ended (R33), or
that the cycle in progress is left unjudged (R33, R108). -/
inductive TbEffect where
  | nothing
  | judged (regular : Bool)
  | unjudged
  deriving DecidableEq, Repr

/-- The nominal period of a survey (R3, R23). -/
def nominalPeriod (hz : Nat) : Nat := if hz = 50 then 800000 else 666666

/-- The step length and the step fraction that follow a strobe (R25). -/
def stepOf (period frac : Nat) : Nat × Nat :=
  if 128 ≤ frac + period % 128 then (period / 128 + 1, frac + period % 128 - 128)
  else (period / 128, frac + period % 128)

/-- The timebase at a start, at crystal time `now` (R23, R24). The step to the first strobe adds nothing to the step fraction, as
R25 adds at strobes: the model's choice, which shows at 60 Hz, where the 128 steps counted from the start are P - 1 ticks
(log 60). -/
def Timebase.start (hz now : Nat) : Timebase :=
  { state := .free, ref := 0, history := [], lastCrossing := none, armLow := false, armHigh := false,
    period := nominalPeriod hz, nextPeriod := none, frac := 0, index := none, resetNext := false, cycle := 0, held := 0, qual := 0, source := none,
    nextStrobe := now + nominalPeriod hz / 128, prev := none }

/-- The published frequency in mHz (R40). -/
def Timebase.published (tb : Timebase) : Nat := if tb.state = .locked then 40000000000 / tb.period else 0

/-- The index of the next instant (R26, R32). -/
def Timebase.nextIndex (tb : Timebase) : Nat :=
  match tb.index with
  | none => 0
  | some i => if tb.resetNext then 0 else (i + 1) % 128

/-- The period in use from the next strobe on (R25, R38). -/
def Timebase.periodNext (tb : Timebase) : Nat := tb.nextPeriod.getD tb.period

/-- A strobe is issued: a change of P that waited for it comes about (R38), the step that follows, the index of its instant, and
the counts of LOCKED (R33) and HOLDOVER (R35). -/
def Timebase.strobe (tb : Timebase) : Timebase :=
  { tb with
    period := tb.periodNext
    nextPeriod := none
    nextStrobe := tb.nextStrobe + (stepOf tb.periodNext tb.frac).1
    frac := (stepOf tb.periodNext tb.frac).2
    index := some tb.nextIndex
    resetNext := false
    cycle := if tb.state = .locked then tb.cycle + 1 else tb.cycle
    held := if tb.state = .holdover then tb.held + 1 else tb.held }

/-- The floor of the mean of a list (R31, R32). -/
def meanOf (l : List Nat) : Nat := l.sum / l.length

/-- The acquisition test of R31. -/
def acquired (hz : Nat) (h : List Nat) : Bool :=
  h.length == 8 && h.all (periodInRange hz) && h.foldl max 0 - h.foldl min (h.headD 0) ≤ meanOf h * 5 / 1000

/-- Entry into LOCKED at a crossing, with its first index reset (R31, R33, R35). -/
def Timebase.lock (tb : Timebase) (history : List Nat) : Timebase :=
  { tb with state := .locked, history := history, period := meanOf (lastOf 4 history), nextPeriod := none, resetNext := true,
            cycle := 0, held := 0, qual := 0, source := none }

/-- Entry into HOLDOVER (R35). -/
def Timebase.holdover (tb : Timebase) : Timebase := { tb with state := .holdover, held := 0, qual := 0 }

/-- The return test of HOLDOVER for one interval against the held period (R35). -/
def returnQualifies (hz period i : Nat) : Bool :=
  periodInRange hz i && i - period ≤ period * 2 / 100 && period - i ≤ period * 2 / 100

/-- An index reset in LOCKED: the cycle just ended is judged (R32, R33). -/
def Timebase.indexReset (tb : Timebase) : Timebase × TbEffect :=
  ({ tb with resetNext := true, cycle := 0 }, .judged (tb.cycle == 128))

/-- An interval has entered the history: R31 in FREE and PEER, R32 and R34 in LOCKED, R35 in HOLDOVER. -/
def Timebase.interval (tb : Timebase) (hz i : Nat) : Timebase × TbEffect :=
  match tb.state with
  | .free | .peer => if acquired hz tb.history then (tb.lock tb.history, .nothing) else (tb, .nothing)
  | .locked =>
    if periodInRange hz i then { tb with period := meanOf (lastOf 4 tb.history) }.indexReset else (tb.holdover, .unjudged)
  | .holdover =>
    if returnQualifies hz tb.period i then
      if tb.qual + 1 = 2 then (tb.lock (lastOf 2 tb.history), .nothing) else ({ tb with qual := tb.qual + 1 }, .nothing)
    else ({ tb with qual := 0 }, .nothing)
  | .stopped => (tb, .nothing)

/-- A rising crossing at tick time `t` is taken (R28, R29). -/
def Timebase.crossing (tb : Timebase) (hz t : Nat) : Timebase × TbEffect :=
  let tb' := { tb with armLow := false, armHigh := false, lastCrossing := some t }
  match tb.lastCrossing with
  | some l => { tb' with history := pushBounded 8 tb.history (t - l) }.interval hz (t - l)
  | none => if tb.state = .locked then tb'.indexReset else (tb', .nothing)

/-- The tick time of a rising crossing between `a` at `ta` and `b` at `tb`, by linear interpolation (R29). -/
def crossingTime (ta tb : Nat) (a b : Int) : Nat := ta + (tb - ta) * (-a).toNat / (b - a).toNat

/-- The watch of the reference channel's sample of the instant at tick time `t` (R28). -/
def Timebase.watch (tb : Timebase) (hz un t : Nat) (xs : List Int) : Timebase × TbEffect :=
  let b := xs.getD tb.ref 0
  let low := tb.armLow || b ≤ -((un / 5 : Nat) : Int)
  let high := tb.armHigh || ((un / 5 : Nat) : Int) ≤ b
  let armed := { tb with armLow := low, armHigh := high, prev := some (t, xs) }
  match tb.prev with
  | some (ta, prev) =>
    let a := prev.getD tb.ref 0
    if a < 0 ∧ 0 ≤ b ∧ low ∧ high then armed.crossing hz (crossingTime ta t a b) else (armed, .nothing)
  | none => (armed, .nothing)

/-- The reference test at an evaluated boundary (R27): a move when the reference channel is INTERRUPTED and another voltage
channel is not. -/
def Timebase.reference (tb : Timebase) (states : List ChState) : Timebase × TbEffect :=
  if states.getD tb.ref .normal = .interrupted then
    match (List.range 3).find? fun i => states.getD i .normal != .interrupted with
    | some r =>
      let moved := { tb with ref := r, history := [], lastCrossing := none, armLow := false, armHigh := false, qual := 0 }
      if tb.state = .locked then (moved.holdover, .unjudged) else (moved, .nothing)
    | none => (tb, .nothing)
  else (tb, .nothing)

/-- Entry into FREE, with the nominal period (R36, R38). -/
def Timebase.toFree (tb : Timebase) (hz : Nat) : Timebase :=
  { tb with state := .free, period := nominalPeriod hz, nextPeriod := none, source := none, held := 0, qual := 0 }

/-- Following a peer (R38): P changes at the next strobe. That it does so also at the entry into PEER and at a change of the
source, where no beacon brings the F, is the model's choice (log 62). -/
def Timebase.toPeer (tb : Timebase) (source freq : Nat) : Timebase :=
  { tb with state := .peer, nextPeriod := some (40000000000 / freq), source := some source, held := 0, qual := 0 }

/-- A choice of R37 and its outcome (R36, R38, R39). -/
def Timebase.choose (tb : Timebase) (hz : Nat) : Option (Nat × Nat) → Timebase
  | some (n, f) => tb.toPeer n f
  | none => tb.toFree hz

/-- The timebase makes a choice of R37. -/
def State.choosePeer (s : State) : State := { s with tb := s.tb.choose s.hdr.params.hz s.peerChoice }

end Sys2Proof.Machine
end

