-- ==== Sys2Proof/Machine/Harmonic.lean ====
section
/-!
DEFINITION. The harmonic analyser (chapter 6): blocks and their sums, the block arithmetic, exclusion, settlement,
interval aggregation and the INTERVAL record.
-/

namespace Sys2Proof.Machine

/-- The coefficients C[0..32] of R103: 32768 × cos(2πi / 128) rounded to the nearest integer and clamped. -/
def cosQuarter : List Int :=
  [32767, 32729, 32610, 32413, 32138, 31786, 31357, 30853, 30274, 29622, 28899, 28106, 27246, 26320, 25330, 24279, 23170,
   22006, 20788, 19520, 18205, 16846, 15447, 14010, 12540, 11039, 9512, 7962, 6393, 4808, 3212, 1608, 0]

/-- The table C of R103, by its symmetries C[128 − i] = C[i] and C[64 − i] = −C[i]. -/
def cosTable (i : Nat) : Int :=
  let j := i % 128
  if j ≤ 32 then cosQuarter.getD j 0
  else if j ≤ 64 then -cosQuarter.getD (64 - j) 0
  else if j ≤ 96 then -cosQuarter.getD (j - 64) 0
  else cosQuarter.getD (128 - j) 0

/-- The table Sn of R103: sin(2πi / 128) is cos(2π(i − 32) / 128). -/
def sinTable (i : Nat) : Int := cosTable (i + 96)

/-- The orders 1..40. -/
def orders : List Nat := (List.range 40).map (· + 1)

/-- Cycles per block (R3). -/
def blockCycles (hz : Nat) : Nat := if hz = 50 then 10 else 12

/-- Instants per block (R101). -/
def blockInstants (hz : Nat) : Nat := 128 * blockCycles hz

/-- The sums of one channel after the sample of the block's n-th instant (R104). -/
def addSample (n : Nat) (x : Int) (sums : List (Int × Int)) : List (Int × Int) :=
  List.zipWith (fun h s => (s.1 + x * cosTable (h * n), s.2 + x * sinTable (h * n))) orders sums

/-- A block before its first instant, in interval `i` of survey time `t` (R101, R111). -/
def freshBlock (channels i t : Nat) (unsure : Bool) : Block :=
  { taken := 0, sums := List.replicate channels (List.replicate 40 (0, 0)), first := t, firstUnsure := unsure, last := t,
    lastUnsure := unsure, tbMark := false, evMark := false, interval := i, judged := false, results := none }

/-- A block takes an instant; one taken outside LOCKED gives it the TIMEBASE mark, and then no verdict is waited for on its
cycle (R104, R108). -/
def Block.take (b : Block) (xs : List Int) (t : Nat) (unsure locked : Bool) : Block :=
  { b with taken := b.taken + 1, sums := List.zipWith (addSample b.taken) xs b.sums, last := t, lastUnsure := unsure,
           tbMark := b.tbMark || !locked, judged := !locked }

/-- What the timebase hands over reaches a block that holds an instant of the cycle: an irregular or unjudged cycle gives
the TIMEBASE mark, and the verdict is in hand (R102, R108). -/
def Block.hear (b : Block) (f : TbEffect) : Block :=
  match f with
  | .nothing => b
  | .judged regular => if b.judged then b else { b with tbMark := b.tbMark || !regular, judged := true }
  | .unjudged => if b.judged then b else { b with tbMark := true, judged := true }

/-- The analyser takes what the timebase hands over, for its current and its settling block (R108). -/
def Harmonic.hear (a : Harmonic) (f : TbEffect) : Harmonic :=
  { a with current := a.current.map fun b => b.hear f, settling := a.settling.map fun b => b.hear f }

/-! ## Block arithmetic (R104 to R107) -/

/-- The amplitude of an order from its sums (R104, R105). -/
def amplitude (n : Nat) (s : Int × Int) : Nat :=
  let re := s.1 / 32768
  let im := s.2 / 32768
  isqrt (512 * (re.natAbs * re.natAbs + im.natAbs * im.natAbs)) / n

/-- The floor of A_1 on the channel of index `c` (R106). -/
def fundamentalFloor (un c : Nat) : Nat := if c < 3 then 64 * un / 100 else 160

/-- A ratio to the fundamental, clamped (R107). -/
def ratioOf (a a1 : Nat) : Nat := min (a * 10000 / a1) 65535

/-- The ratios of orders 2..40 and the THD of amplitudes whose fundamental is not low (R107, R113). -/
def ratiosOf (amps : List Nat) : List Nat × Nat :=
  let a1 := amps.headD 0
  let rest := amps.drop 1
  (rest.map fun a => ratioOf a a1, ratioOf (isqrt (rest.map fun a => a * a).sum) a1)

/-- The results of one channel of a block (R105 to R107). -/
def channelResult (n un c : Nat) (sums : List (Int × Int)) : ChanResult :=
  let amps := sums.map (amplitude n)
  if amps.headD 0 < fundamentalFloor un c then { amps := amps, ratios := none, thd := none }
  else { amps := amps, ratios := some (ratiosOf amps).1, thd := some (ratiosOf amps).2 }

/-- The arithmetic of a block (R104 to R107). -/
def Block.compute (b : Block) (p : Params) : Block :=
  { b with results := some (List.zipWith (channelResult (blockInstants p.hz) p.un) (List.range b.sums.length) b.sums) }

/-! ## Intervals (R110 to R115) -/

/-- The blocks counted in an interval (R110). -/
def Accum.counted (a : Accum) : Nat := a.m + a.xT + a.xE

/-- Empty accumulators of the interval that a block begins (R112). -/
def Accum.begin (b : Block) : Accum :=
  { interval := b.interval, start := b.first, startUnsure := b.firstUnsure, stop := b.last, stopUnsure := b.lastUnsure,
    sums := b.sums.map fun _ => List.replicate 40 0, maxima := b.sums.map fun _ => none, m := 0, xT := 0, xE := 0 }

/-- The maximum ratios of a channel after a contributing block (R112). -/
def maxRatios (mx : Option (List Nat)) (r : ChanResult) : Option (List Nat) :=
  match mx, r.ratios with
  | some a, some b => some (List.zipWith max a b)
  | none, b => b
  | a, none => a

/-- A settled block is counted: excluded for TIMEBASE, else for EVENT, or it contributes (R110, R112). -/
def Accum.count (a : Accum) (b : Block) : Accum :=
  let a := { a with stop := b.last, stopUnsure := b.lastUnsure }
  if b.tbMark then { a with xT := a.xT + 1 }
  else if b.evMark then { a with xE := a.xE + 1 }
  else
    let rs := b.results.getD []
    { a with m := a.m + 1
             sums := List.zipWith (fun s r => List.zipWith (fun x y => x + y * y) s r.amps) a.sums rs
             maxima := List.zipWith maxRatios a.maxima rs }

/-- One channel's aggregated amplitudes (R113). -/
def Accum.aggregate (a : Accum) (sums : List Nat) : List Nat := sums.map fun x => isqrt (x / a.m)

/-- The aggregated ratios and THD of a channel, absent when its aggregated fundamental is low (R113). -/
def aggregateRatios (un c : Nat) (amps : List Nat) : Option (List Nat × Nat) :=
  if amps.headD 0 < fundamentalFloor un c then none else some (ratiosOf amps)

/-- A run of 39 ratios, zeros when absent (R199). -/
def ratioBytes (r : Option (List Nat)) : List Byte := (r.getD (List.replicate 39 0)).flatMap (beBytes 2)

/-- One channel row of an INTERVAL record (R199). -/
def rowBytes (un c : Nat) (amps : List Nat) (mx : Option (List Nat)) : List Byte :=
  let r := aggregateRatios un c amps
  beBytes 4 (amps.headD 0) ++ beBytes 2 ((r.map (·.2)).getD 0) ++ ratioBytes (r.map (·.1)) ++ ratioBytes mx

/-- The page of an INTERVAL record (R114, R199). -/
def Accum.bytes (a : Accum) (un : Nat) (isPartial supply unsure : Bool) (notes : List Nat) : List Byte :=
  let ids := notes.flatMap (beBytes 2)
  let rows := a.sums.map a.aggregate
  let chans := List.range rows.length
  let empty := a.m == 0
  beBytes 1 3 ++ beBytes 1 (flagByte [isPartial, empty, supply, unsure]) ++ beBytes 1 a.sums.length ++
    beBytes 1 notes.length ++ beBytes 2 a.interval ++ beBytes 4 a.start ++ beBytes 4 a.stop ++ beBytes 2 a.m ++ beBytes 2 a.xT ++
    beBytes 2 a.xE ++ ids ++ List.replicate (8 - ids.length) 0 ++
    beBytes 1 (if empty then 0 else flagByte (List.zipWith (fun c r => (aggregateRatios un c r).isSome) chans rows)) ++
    beBytes 1 (if empty then 0 else flagByte (a.maxima.map (·.isSome))) ++ beBytes 2 a.counted ++
    (if empty then [] else
      (List.zipWith (fun c rm => rowBytes un c rm.1 rm.2) chans (List.zip rows a.maxima)).flatten)

/-- The running interval, if it has counted a block, is sealed and handed to the store (R114, R115). -/
def State.sealInterval (s : State) (supply : Bool) : State :=
  match s.har.accum with
  | none => s
  | some a =>
    let unsure := a.startUnsure || a.stopUnsure || s.provisional
    let page := a.bytes s.hdr.params.un (decide (a.counted < s.hdr.params.k)) supply unsure (s.attach a.start a.stop)
    let s := { s with har := { s.har with accum := none },
                      ctr := { s.ctr with intervalsSealed := satAdd s.ctr.intervalsSealed 1 } }
    let out := s.storeOnePage .interval none page
    match out.2 with
    | some _ => out.1
    | none => { out.1 with ctr := { out.1.ctr with intervalsLost := satAdd out.1.ctr.intervalsLost 1 } }

/-- The settling block is counted in its interval, which is sealed with its K-th block (R110, R113). -/
def State.settle (s : State) (b : Block) : State :=
  let a := (s.har.accum.getD (Accum.begin b)).count b
  let ctr := if b.tbMark then { s.ctr with blocksTimebase := satAdd s.ctr.blocksTimebase 1 }
    else if b.evMark then { s.ctr with blocksEvent := satAdd s.ctr.blocksEvent 1 } else s.ctr
  let s := { s with har := { s.har with settling := none, accum := some a }, ctr := ctr }
  if s.hdr.params.k ≤ a.counted then s.sealInterval false else s

/-- A settling block is settled when its arithmetic is complete and it awaits no verdict on the cycle of its last instant
(R102, R108). -/
def State.trySettle (s : State) : State :=
  match s.har.settling with
  | some b => if b.results.isSome && b.judged then s.settle b else s
  | none => s

/-- The settling block, if any, is settled before the next one becomes full: its arithmetic is complete by then, and a
verdict still awaited means that its cycle was left unjudged (R102; log 12). -/
def State.forceSettle (s : State) : State :=
  match s.har.settling with
  | some b =>
    let b := b.hear .unjudged
    s.settle (if b.results.isSome then b else b.compute s.hdr.params)
  | none => s

/-- A full current block becomes the settling block (R101). -/
def State.fillBlock (s : State) : State :=
  match s.har.current with
  | some b =>
    if blockInstants s.hdr.params.hz ≤ b.taken then
      let s := s.forceSettle
      { s with har := { s.har with current := none, settling := some b } }
    else s
  | none => s

/-- A block begins: it joins the running interval, or a new one (R101, R111). -/
def Harmonic.begin (a : Harmonic) (k channels t : Nat) (unsure : Bool) : Harmonic :=
  if 0 < a.blockCounter ∧ a.blockCounter < k then
    { a with blockCounter := a.blockCounter + 1, current := some (freshBlock channels a.intervalCounter t unsure) }
  else
    let i := if a.intervalCounter = 65535 then 1 else a.intervalCounter + 1
    { a with blockCounter := 1, intervalCounter := i, current := some (freshBlock channels i t unsure) }

/-- The analyser takes an instant of sample index `index`, taken in timebase state `tb` (R101, R104). -/
def State.analyse (s : State) (xs : List Int) (index : Nat) (tb : TbState) : State :=
  let s := s.fillBlock
  let t := s.clock.survey
  let a := if index = 0 ∧ s.har.current.isNone then s.har.begin s.hdr.params.k s.channels t s.provisional else s.har
  { s with har := { a with current := a.current.map fun b => b.take xs t s.provisional (tb == .locked) } }

/-- An evaluated boundary that lies in an own event marks the current block, which holds its instant (R109). -/
def State.markEvent (s : State) : State :=
  if s.ev.event.isSome then { s with har := { s.har with current := s.har.current.map fun b => { b with evMark := true } } }
  else s

/-- A close or parking: the blocks are abandoned, and a running interval with a counted block is sealed (R116). -/
def State.stopHarmonic (s : State) (supply : Bool) : State :=
  let s := { s with har := { s.har with current := none, settling := none, blockCounter := 0 } }
  s.sealInterval supply

/-- The interval index of the newest INTERVAL record not sealed LOST POWER, or 0 (R100). -/
def Store.newestInterval (st : Store) : Nat :=
  match ((st.sealedOf .interval).filter fun e => e.img.outcome != .lostPower).getLast? with
  | some e => st.field e.img 4 2
  | none => 0

/-- The analyser at a start (R100). -/
def freshHarmonic (counter : Nat) : Harmonic :=
  { current := none, settling := none, blockCounter := 0, intervalCounter := counter, accum := none }

end Sys2Proof.Machine
end

