-- ==== Sys2Proof/Machine/Report.lean ====
section
/-!
DEFINITION. Composing reports (9.3): the lines of each report kind, made one at a time from the records and the live
state.
-/

namespace Sys2Proof.Machine

/-- The name of a report kind (R167). -/
def ReportKind.name : ReportKind → List Byte
  | .sagList => txt "SAG LIST"
  | .harmonicSummary => txt "HARMONIC SUMMARY"
  | .noteList => txt "NOTE LIST"
  | .surveySheet => txt "SURVEY SHEET"

/-- The name of a survey state. -/
def HeaderState.name : HeaderState → List Byte
  | .idle => txt "IDLE"
  | .recording => txt "RECORDING"
  | .rejoining => txt "REJOINING"
  | .closed => txt "CLOSED"

/-- The name of a survey state carried as a code; a code that R197 does not name prints "?" (R172). -/
def stateName : Nat → List Byte
  | 0 => txt "IDLE" | 1 => txt "RECORDING" | 2 => txt "REJOINING" | 3 => txt "CLOSED" | _ => txt "?"

/-- The name of a timebase state carried as a code (R172). -/
def tbName : Nat → List Byte
  | 0 => txt "STOPPED" | 1 => txt "LOCKED" | 2 => txt "HOLDOVER" | 3 => txt "PEER" | 4 => txt "FREE" | _ => txt "?"

/-- The name of a restart cause. -/
def Cause.name : Cause → List Byte
  | .powerOn => txt "POWER-ON" | .supplyDip => txt "SUPPLY DIP" | .pinReset => txt "PIN RESET"

/-- "?" when a flag is set. -/
def mark (unsure : Bool) : List Byte := if unsure then txt "?" else []

/-- The time field of 17 characters (R168). -/
def timeField (p : Params) (t : Nat) (unsure : Bool) : List Byte :=
  let all := (p.hours * 3600 + p.minutes * 60 + p.seconds) * 1000 + t
  let day := all / 86400000
  let r := all % 86400000
  fieldLeft 17 (decZeros 2 (r / 3600000) ++ txt ":" ++ decZeros 2 (r / 60000 % 60) ++ txt ":" ++ decZeros 2 (r / 1000 % 60) ++
    txt "." ++ decZeros 3 (r % 1000) ++ (if 0 < day then txt "d+" ++ dec day else []) ++ mark unsure)

/-- A quantity of 0.01 % as a percent in a field of `w` (R168). -/
def percent (w n : Nat) : List Byte := field w (decimals 2 n)

/-- The line of the ids attached to a record, absent when there are none (R169). -/
def notesLine (ids : List Nat) : List (List Byte) :=
  if ids.isEmpty then [] else [txt "  N:" ++ ids.flatMap fun i => sp ++ num 5 i]

/-- `n` numbers of `w` bytes at an offset of a record. -/
def Store.numbers (st : Store) (d : DirImage) (o w n : Nat) : List Nat := (List.range n).map fun i => st.field d (o + w * i) w

/-- The two lines of a record sealed LOST POWER (R167). -/
def lostPowerLines (p : Params) (d : DirImage) : List (List Byte) :=
  [txt "REC" ++ num 10 d.record ++ txt " LOST POWER", txt "  C:" ++ timeField p d.created false]

/-- The letter of an event kind (R169). -/
def kindLetter : Nat → List Byte
  | 1 => txt "U" | 2 => txt "S" | 3 => txt "I" | _ => sp

/-- The duration field of a summary (R168, R169). The "?" of a duration is right-aligned like the number in its place (log 52). -/
def durationField (start stop : Nat) : List Byte :=
  if stop < start then field 6 (txt "?") else field 6 (decimals 2 ((stop - start) / 10))

/-- The lines of one SAG SUMMARY (R169). -/
def State.sagLines (s : State) (d : DirImage) : List (List Byte) :=
  let st := s.store
  let kind := st.field d 4 1
  let start := st.field d 8 4
  let channel := fun b c => if st.flag d 7 b then txt c else txt "."
  let level := if kind = 1 then st.field d 24 2 else st.field d 22 2
  let wave := st.field d 26 4
  let main := num 5 (st.field d 2 2) ++ sp ++ timeField s.hdr.params start (st.flag d 6 2) ++ kindLetter kind ++
    channel 0 "1" ++ channel 1 "2" ++ channel 2 "3" ++ percent 6 level ++ durationField start (st.field d 12 4) ++
    (if wave ≠ 0 ∧ (st.entryOf wave).isSome then txt "W" else sp)
  let related := (List.range (st.field d 42 1)).flatMap fun i =>
    sp ++ num 2 (st.field d (43 + 3 * i) 1) ++ txt ":" ++ num 5 (st.field d (44 + 3 * i) 2)
  [main] ++ (if related.isEmpty then [] else [txt "  R:" ++ related]) ++ notesLine (st.numbers d 56 2 (st.field d 55 1))

/-- The worst order 2..40 of a row's maximum ratios with its ratio, the lower order on a tie (R170). -/
def worstOrder (maxima : List Nat) : Nat × Nat :=
  (List.zip ((List.range 39).map (· + 2)) maxima).foldl (fun w x => if w.2 < x.2 then x else w) (2, maxima.headD 0)

/-- The channel line of the row of index `c` (R170). -/
def State.channelLine (s : State) (d : DirImage) (c : Nat) : List Byte :=
  let st := s.store
  let o := 32 + 162 * c
  let a := st.field d o 4
  let name := [txt "V1", txt "V2", txt "V3", txt "I1", txt "I2", txt "I3"].getD c []
  let worst := worstOrder (st.numbers d (o + 84) 2 39)
  name ++ field 8 (decimals 1 (if c < 3 then a * 15625 / 1000000 else a * 10 / 16)) ++
    txt " T" ++ orDash 7 (if st.flag d 28 c then some (decimals 2 (st.field d (o + 4) 2)) else none) ++
    txt " H" ++ (if st.flag d 29 c then num 2 worst.1 ++ percent 7 worst.2 else orDash 2 none ++ orDash 7 none)

/-- The lines of one INTERVAL record (R170). -/
def State.intervalLines (s : State) (d : DirImage) : List (List Byte) :=
  let st := s.store
  let channels := st.field d 2 1
  let flag := fun b c => if b then txt c else txt "."
  let first := txt "INT" ++ num 6 (st.field d 4 2) ++ sp ++ timeField s.hdr.params (st.field d 6 4) (st.flag d 1 3) ++ sp ++
    flag (st.flag d 1 0) "P" ++ flag (st.flag d 1 1) "E" ++ flag (st.flag d 1 2) "S" ++ flag (channels == 3) "C"
  let second := txt "  M" ++ num 5 (st.field d 14 2) ++ txt " XT" ++ num 5 (st.field d 16 2) ++ txt " XE" ++ num 5 (st.field d 18 2)
  [first, second] ++ (if st.flag d 1 1 then [] else (List.range channels).map (s.channelLine d)) ++
    notesLine (st.numbers d 20 2 (st.field d 3 1))

/-- The letter of a note kind (R171). -/
def noteLetter : Nat → List Byte
  | 1 => txt "S" | 2 => txt "O" | 3 => txt "C" | _ => sp

/-- The lines of one NOTE record (R171). -/
def State.noteLines (s : State) (d : DirImage) : List (List Byte) :=
  let n := s.store.noteOf d
  [num 5 n.id ++ sp ++ noteLetter n.kind ++ sp ++ timeField s.hdr.params n.received (s.store.flag d 12 0) ++ sp ++ num 3 n.span ++
     (if n.kind = 3 then sp ++ txt ">" ++ num 5 n.corrects else []),
   n.text]

/-- The lines of one listed record (R167, R169 to R171). -/
def State.recordLines (s : State) (k : ReportKind) (r : Nat) : List (List Byte) :=
  match s.store.entryOf r with
  | none => []
  | some e =>
    if e.img.outcome = .lostPower then lostPowerLines s.hdr.params e.img
    else match k with
      | .sagList => s.sagLines e.img
      | .harmonicSummary => s.intervalLines e.img
      | .noteList => s.noteLines e.img
      | .surveySheet => []

/-- The site entries of the notes table, in order of receipt (R146). -/
def State.sites (s : State) : List NoteEntry := s.notes.filter (·.site)

/-- The ACTIVE OBSERVATION entries, in order of receipt (R154). -/
def State.observations (s : State) : List NoteEntry := s.notes.filter fun e => !e.site && !e.expired

/-- The counters with their names, in the order of R195. -/
def Counters.list (c : Counters) : List Nat :=
  [c.events, c.summariesLost, c.companionsOpened, c.companionsMissed, c.capturesTruncated, c.capturesNoWave, c.triggersStale,
   c.intervalsSealed, c.intervalsLost, c.blocksTimebase, c.blocksEvent, c.recordsReclaimed, c.badPages, c.notesExpiredEarly,
   c.jobsCompleted, c.jobsAbandoned, c.jobsRefused]

/-- The names of the counters as R195 gives them. -/
def counterNames : List (List Byte) :=
  [txt "events", txt "summaries lost", txt "companions opened", txt "companions missed", txt "captures truncated",
   txt "captures without waveform", txt "triggers dropped stale", txt "intervals sealed", txt "intervals lost",
   txt "blocks excluded by timebase", txt "blocks excluded by event", txt "records reclaimed", txt "bad pages",
   txt "notes expired early", txt "jobs completed", txt "jobs abandoned", txt "jobs refused"]

/-- ON or OFF. -/
def onOff (b : Bool) : List Byte := if b then txt "ON" else txt "OFF"

/-- The parameter lines of a SURVEY SHEET (R172). -/
def Params.lines (p : Params) : List (List Byte) :=
  [txt "UN" ++ field 7 (decimals 1 p.un) ++ txt " HZ" ++ num 3 p.hz,
   txt "TS" ++ percent 8 p.ts ++ txt " TI" ++ percent 8 p.ti,
   txt "TW" ++ percent 8 p.tw ++ txt " H" ++ percent 8 p.h,
   txt "K" ++ num 5 p.k ++ txt " QH" ++ num 3 p.qh,
   txt "XTRIG SEND " ++ onOff p.send ++ txt " ACCEPT " ++ onOff p.accept,
   txt "START " ++ decZeros 2 p.hours ++ txt ":" ++ decZeros 2 p.minutes ++ txt ":" ++ decZeros 2 p.seconds,
   txt "LABEL " ++ p.label]

/-- The four lines of an observation (R172). "GONE" is right-aligned like the number in its place (log 52). -/
def State.observationLines (s : State) (e : NoteEntry) : List (List Byte) :=
  [txt "OBS" ++ num 6 e.id ++ txt " REC" ++ orDash 11 (e.record.map fun r =>
     if (s.store.entryOf r).isSome then dec r else txt "GONE"),
   txt "  AT " ++ timeField s.hdr.params e.received false,
   match e.spanEnd with
   | some t => txt "  TO " ++ timeField s.hdr.params t false
   | none => txt "  UNTIL CORRECTED",
   e.text]

/-- The line of a roster entry (R172). A "?" for a state that R197 does not name is left-aligned like a name (log 52). -/
def State.rosterLine (s : State) (e : RosterEntry) : List Byte :=
  let ago := num 5 ((s.clock.now - e.lastFrame) / Config.ticksPerMs)
  match e.beacon with
  | some b => num 2 e.station ++ sp ++ num 5 b.number ++ sp ++ fieldLeft 9 (stateName b.state) ++ sp ++
      fieldLeft 8 (tbName b.tbState) ++ sp ++ (if b.flags.testBit 1 then txt "P" else sp) ++ ago
  | none => num 2 e.station ++ sp ++ orDash 5 none ++ sp ++ orDash 9 none ++ sp ++ orDash 8 none ++ sp ++ txt "-" ++ ago

/-- The groups of a report: 0 title, 1 site lines, 2 listed records, 3 the MORE line, and for a SURVEY SHEET 4 survey, 5
parameters, 6 observations, 7 timebase, 8 counters, 9 roster, 10 restart log (R167, R172). The number of items that a
group holds now. -/
def State.groupSize (s : State) (j : Job) (g : Nat) : Nat :=
  let sheet := j.kind == .surveySheet
  match g with
  | 0 => 1
  | 1 => s.sites.length
  | 2 => j.records.length
  | 3 => if 0 < j.more then 1 else 0
  | 4 | 5 | 7 => sheet.toNat
  | 6 => if sheet then s.observations.length else 0
  | 8 => if sheet then 17 else 0
  | 9 => if sheet then s.line.roster.length else 0
  | 10 => if sheet then s.hdr.log.length else 0
  | _ => 0

/-- The lines of an item of a group, as the group stands now; "-" where the group holds fewer items (R167, R172). The cause
name of a restart log line is left-aligned like a state name (log 52). -/
def State.itemLines (s : State) (j : Job) (g i : Nat) : List (List Byte) :=
  match g with
  | 0 => [j.kind.name ++ txt " STN" ++ num 2 s.stationNo ++ txt " SVY" ++ num 5 s.hdr.number]
  | 1 => [(s.sites[i]?.map (·.text)).getD (txt "-")]
  | 2 => s.recordLines j.kind (j.records.getD i 0)
  | 3 => [txt "+" ++ num 5 j.more ++ txt " MORE"]
  | 4 => [txt "STATE " ++ s.hdr.state.name, txt "TIME " ++ timeField s.hdr.params s.clock.survey s.provisional]
  | 5 => s.hdr.params.lines
  | 6 => (s.observations[i]?.map s.observationLines).getD (List.replicate 4 (txt "-"))
  | 7 => [txt "TB " ++ fieldLeft 8 (tbName s.tb.state.code) ++ sp ++ field 10 (decimals 3 s.tb.published)]
  | 8 => [counterNames.getD i [] ++ num 6 (s.ctr.list.getD i 0) ++
      (if i = 12 then txt " TOTAL" ++ num 5 s.store.badTotal else [])]
  | 9 => [(s.line.roster[i]?.map s.rosterLine).getD (txt "-")]
  | 10 => [(s.hdr.log[i]?.map fun l => fieldLeft 10 l.cause.name ++ sp ++ timeField s.hdr.params l.checkpoint false).getD (txt "-")]
  | _ => []

/-- The next line of a report and the cursor behind it, absent when the report's lines are all made (R167): the number of a
group's items is fixed with its first line. -/
def State.nextLine (s : State) (j : Job) : Nat → Cursor → Option (List Byte × Cursor)
  | 0, _ => none
  | fuel + 1, c =>
    let n := if c.item = 0 ∧ c.line = 0 then s.groupSize j c.group else c.count
    if c.item < n then
      let ls := s.itemLines j c.group c.item
      let c := { c with count := n }
      some (ls.getD c.line [], if c.line + 1 < ls.length then { c with line := c.line + 1 } else { c with item := c.item + 1, line := 0 })
    else s.nextLine j fuel { group := c.group + 1, item := 0, line := 0, count := 0 }

end Sys2Proof.Machine
end

