-- ==== Sys2Proof/Machine/Printer.lean ====
section
/-!
DEFINITION. The print exchange (9.1, 9.2, 9.4): the printer service with its queue, buffer, banners and trailers; the
origin side with its jobs, timers and blocks; and the hand-overs of a station that prints at its own printer (R166).
-/

namespace Sys2Proof.Machine

/-- A message of the exchange on its way inside this station (R166): to the printer service or to the report engine. -/
structure Hand where
  toService : Bool
  msg       : Payload
  deriving DecidableEq, Repr

/-- A state together with the messages that are on their way inside this station. -/
abbrev Exchange := State × List Hand

/-- Goes on from an exchange, the messages kept in the order of their making. -/
def Exchange.andThen (x : Exchange) (f : State → Exchange) : Exchange := ((f x.1).1, x.2 ++ (f x.1).2)

/-- Sends a message of the exchange to the printer service or the report engine of a party: a frame to another station, a
hand-over at this one (R166). -/
def State.post (s : State) (party : Party) (toService : Bool) (m : Payload) : Exchange :=
  match party with
  | .own => (s, [{ toService := toService, msg := m }])
  | .station n => (s.send m n, [])

/-- The number of a party, as banners print it. -/
def State.partyNumber (s : State) : Party → Nat
  | .own => s.stationNo
  | .station n => n

/-! ## The printer service -/

/-- The printer service works in every state of a part that runs, when the PRINTER strap is 1 (R1, R173). -/
def State.serviceWorks (s : State) : Bool := s.isRunning && s.straps.printer

/-- Origin and job as the banner prints them (R175). -/
def State.jobTag (s : State) (origin : Party) (job : Nat) : List Byte :=
  num 2 (s.partyNumber origin) ++ txt "/" ++ num 3 job

/-- The banner of a job (R175). -/
def State.banner (s : State) (e : QueueEntry) : List Byte := txt "== JOB" ++ sp ++ s.jobTag e.origin e.job ++ sp ++ e.kind.name

/-- The trailer of a job that ended by END, or the INCOMPLETE trailer (R177). -/
def State.trailerOf (s : State) (e : QueueEntry) (ended : Bool) : List Byte :=
  (if ended then txt "== END" else txt "** INCOMPLETE") ++ sp ++ s.jobTag e.origin e.job ++ txt " LINES" ++ num 5 s.prn.lines

/-- The PRINTING entry (R173). -/
def Printer.printing (p : Printer) : Option QueueEntry := p.queue.find? (·.printing)

/-- The queue entry of an origin and job (R174). -/
def Printer.entryOf (p : Printer) (origin : Party) (job : Nat) : Option QueueEntry :=
  p.queue.find? fun e => e.origin == origin && e.job == job

/-- The queue without the entry of an origin and job. -/
def Printer.without (p : Printer) (origin : Party) (job : Nat) : Printer :=
  { p with queue := p.queue.filter fun e => !(e.origin == origin && e.job == job) }

/-- An entry's effective class is URGENT (R175 step 1). -/
def QueueEntry.effective (now : Nat) (e : QueueEntry) : Bool := e.urgent || e.entered + ms 120000 ≤ now

/-- The origin passed over: the grant history holds 3 grants to it, and an entry of another origin waits (R175 step 2). -/
def Printer.barred (p : Printer) (waiting : List QueueEntry) : Option Party :=
  match p.grants with
  | [a, b, c] => if a = b ∧ b = c ∧ waiting.any (fun e => e.origin != a) then some a else none
  | _ => none

/-- The entry chosen among those waiting (R175 steps 1 to 4). -/
def Printer.choice (p : Printer) (now : Nat) : Option QueueEntry :=
  let waiting := p.queue.filter fun e => !e.printing
  let left := waiting.filter fun e => p.barred waiting != some e.origin
  match left.find? (QueueEntry.effective now) with
  | some e => some e
  | none => left.head?

/-- The service takes up a job: PRINTING, banner, timers and GO (R175). -/
def State.grant (s : State) (e : QueueEntry) : Exchange :=
  let p := s.prn
  let s := { s with prn := { p with
    state := .printing
    queue := p.queue.map fun (x : QueueEntry) => if x.origin == e.origin && x.job == e.job then { x with printing := true } else x
    buffer := p.buffer ++ [s.banner e]
    lastTaken := 0
    lines := 0
    waiting := none
    grants := pushBounded 3 p.grants e.origin
    inactivity := some (s.inMs 5000)
    goTimer := some (s.inMs 1000) } }
  s.post e.origin false (.go e.job)

/-- The choice of R175: made when the service is IDLE, the paper is PRESENT and an entry waits. -/
def State.chooseJob (s : State) : Exchange :=
  if s.serviceWorks && s.prn.state == .idle && !s.pins.paperOut then
    match s.prn.choice s.clock.now with
    | some e => s.grant e
    | none => (s, [])
  else (s, [])

/-- A line of the PRINTING job enters the buffer and is answered TAKEN (R176). -/
def State.takeLine (s : State) (e : QueueEntry) (k : Nat) (line : List Byte) : Exchange :=
  { s with prn := { s.prn with buffer := s.prn.buffer ++ [line], lastTaken := k, lines := s.prn.lines + 1, waiting := none } }.post
    e.origin false (.taken e.job k)

/-- Where the buffer has room, the pending block or the line that waits behind the job's lines enters it (R176, R177,
R173). -/
def State.fillBuffer (s : State) : Exchange :=
  if s.prn.buffer.length < 2 then
    match s.prn.waiting, s.prn.printing with
    | some (k, line), some e => s.takeLine e k line
    | _, _ =>
      match s.prn.trailer with
      | some t => ({ s with prn := { s.prn with buffer := s.prn.buffer ++ [t], trailer := none } }, [])
      | none => (s, [])
  else (s, [])

/-- The PRINTING job ends with a trailer: its entry leaves the queue, the timers stop, a pending block is discarded, and
the service enters FINISHING (R177). -/
def State.endPrinting (s : State) (e : QueueEntry) (ended : Bool) : Exchange :=
  let t := s.trailerOf e ended
  let p := s.prn.without e.origin e.job
  { s with prn := { p with state := .finishing, trailer := some t, waiting := none, inactivity := none,
                           goTimer := none } }.fillBuffer

/-- A new entry joins the queue, or is refused when it holds 8 (R174). -/
def State.appendAsk (s : State) (origin : Party) (job : Nat) (kind : ReportKind) (urgent : Bool) : Exchange :=
  if 8 ≤ s.prn.queue.length then s.post origin false (.refused job 1)
  else
    let e : QueueEntry := { origin := origin, job := job, kind := kind, urgent := urgent, entered := s.clock.now, printing := false }
    ({ s with prn := { s.prn with queue := s.prn.queue ++ [e] } }.post origin false (.queued job)).andThen State.chooseJob

/-- A PRINT ASK of an existing kind (R174). -/
def State.ask (s : State) (origin : Party) (job : Nat) (kind : ReportKind) (urgent : Bool) : Exchange :=
  match s.prn.entryOf origin job with
  | some e =>
    if e.kind = kind ∧ e.urgent = urgent then s.post origin false (if e.printing then .go job else .queued job)
    else if e.printing then s.post origin false (.drop job)
    else { s with prn := s.prn.without origin job }.appendAsk origin job kind urgent
  | none => s.appendAsk origin job kind urgent

/-- A block of the PRINTING job with the sequence after the last taken (R176). -/
def State.nextBlock (s : State) (e : QueueEntry) (k mark : Nat) (text : List Byte) : Exchange :=
  if s.pins.paperOut then
    let kept := s.prn.waiting.filter fun w => w.1 != k
    { s with prn := { s.prn with waiting := kept } }.post e.origin false (.held e.job k)
  else if mark = 1 then
    let done := { s with prn := { s.prn with lastEnded := some { origin := e.origin, job := e.job, seq := k } } }
    (done.endPrinting e true).andThen fun s => s.post e.origin false (.taken e.job k)
  else if s.prn.buffer.length < 2 then s.takeLine e k text
  else ({ s with prn := { s.prn with waiting := some (k, text) } }, [])

/-- A block of the PRINTING job, by its sequence (R176). An END block under the last taken sequence counts as any other
sequence (log 49). -/
def State.jobBlock (s : State) (e : QueueEntry) (k mark : Nat) (text : List Byte) : Exchange :=
  let s := { s with prn := { s.prn with inactivity := some (s.inMs 5000), goTimer := none } }
  if k = s.prn.lastTaken ∧ mark = 0 then s.post e.origin false (.taken e.job k)
  else if k = s.prn.lastTaken + 1 then s.nextBlock e k mark text
  else (s.post e.origin false (.drop e.job)).andThen fun s => s.endPrinting e false

/-- A block of a job that is not PRINTING (R178). -/
def State.strayBlock (s : State) (origin : Party) (job k mark : Nat) : Exchange :=
  if mark = 1 ∧ s.prn.lastEnded = some { origin := origin, job := job, seq := k } then s.post origin false (.taken job k)
  else s.post origin false (.drop job)

/-- A PRINT BLOCK (R176, R178). -/
def State.block (s : State) (origin : Party) (job k mark : Nat) (text : List Byte) : Exchange :=
  if 1 < mark then (s, [])
  else match s.prn.printing with
    | some e => if e.origin = origin ∧ e.job = job then s.jobBlock e k mark text else s.strayBlock origin job k mark
    | none => s.strayBlock origin job k mark

/-- A DROP sent by an origin (R177, R178). -/
def State.dropped (s : State) (origin : Party) (job : Nat) : Exchange :=
  match s.prn.entryOf origin job with
  | some e => if e.printing then s.endPrinting e false else ({ s with prn := s.prn.without origin job }, [])
  | none => (s, [])

/-- What the printer service takes (R173, R174, R176 to R178). -/
def State.serviceTake (s : State) (origin : Party) (m : Payload) : Exchange :=
  if !s.serviceWorks then (s, [])
  else match m with
    | .printAsk job kind cls =>
      match ReportKind.ofCode kind with
      | some k => s.ask origin job k (cls == 1)
      | none => (s, [])
    | .printBlock job k mark text => s.block origin job k mark text
    | .drop job => s.dropped origin job
    | _ => (s, [])

/-! ## The origin side -/

/-- The job that a printer's frame names (R156). -/
def State.jobOf (s : State) (printer : Party) (number : Nat) : Option Job :=
  s.rep.jobs.find? fun j => j.printer == printer && j.number == number

/-- The job in an entry of the table. -/
def State.jobAt (s : State) (entry : Nat) : Option Job := s.rep.jobs.find? fun j => j.entry == entry

/-- A job takes its entry. -/
def State.setJob (s : State) (j : Job) : State :=
  { s with rep := { s.rep with jobs := s.rep.jobs.map fun x => if x.entry == j.entry then j else x } }

/-- A timer of an exchange with another station; with the own printer service it stays stopped (R166). -/
def State.exchangeTimer (s : State) (j : Job) (n : Nat) : Option Nat := if j.printer = .own then none else some (s.inMs n)

/-- The class byte of a PRINT ASK (R197; log 14). -/
def classByte (urgent : Bool) : Nat :=
  if urgent then 1 else if Config.routineClass % 256 = 1 then 0 else Config.routineClass % 256

/-- Sends the PRINT ASK of a job. -/
def State.sendAsk (s : State) (j : Job) : Exchange := s.post j.printer true (.printAsk j.number j.kind.code (classByte j.urgent))

/-- Whether a payload is a copy of a job's ask. -/
def isAskOf (number : Nat) : Payload → Bool
  | .printAsk n _ _ => n == number
  | _ => false

/-- Whether a payload is a copy of a block of a job. -/
def isBlockOf (number seq : Nat) : Payload → Bool
  | .printBlock n k _ _ => n == number && k == seq
  | _ => false

/-- The ask of a job in ASKED is sent, once more than before (R160). -/
def State.askPrinter (s : State) (j : Job) : Exchange :=
  (s.setJob { j with askSends := j.askSends + 1, answerTimer := s.exchangeTimer j 1000 }).sendAsk j

/-- The holding time of a job at this moment, at most 600,000 ms (R163). -/
def State.heldTotal (s : State) (j : Job) : Nat :=
  match j.heldSince with
  | some t => min (j.heldTicks + (s.clock.now - t)) (ms 600000)
  | none => j.heldTicks

/-- The block is sent with a send count (R162, R163). -/
def State.sendBlock (s : State) (j : Job) (b : CurBlock) (sends : Nat) : Exchange :=
  let j := { j with current := some { b with sends := sends }, answerTimer := s.exchangeTimer j 500, holdTimer := none }
  (s.setJob j).post j.printer true (.printBlock j.number b.seq (if b.line.isNone then 1 else 0) (b.line.getD []))

/-- An earlier copy of a job's block is withdrawn, and the block is sent again (R162, R186). -/
def State.resendBlock (s : State) (j : Job) (b : CurBlock) (sends : Nat) : Exchange :=
  { s with line := s.line.withdraw (isBlockOf j.number b.seq) }.sendBlock j b sends

/-- The next block is composed, a line of the report or the END mark, and sent for the first time (R162, R167). -/
def State.composeBlock (s : State) (j : Job) : Exchange :=
  match s.nextLine j 12 j.cursor with
  | some (line, c) =>
    s.sendBlock { j with cursor := c, nextSeq := j.nextSeq + 1 } { seq := j.nextSeq, line := some line, sends := 0 } 1
  | none => s.sendBlock { j with nextSeq := j.nextSeq + 1 } { seq := j.nextSeq, line := none, sends := 0 } 1

/-- How a job ends (R156). -/
inductive JobEnd where
  | done | refused | abandoned
  deriving DecidableEq, Repr

/-- The counter of a job's end rises (R179). -/
def Counters.jobEnded (c : Counters) : JobEnd → Counters
  | .done => { c with jobsCompleted := satAdd c.jobsCompleted 1 }
  | .refused => { c with jobsRefused := satAdd c.jobsRefused 1 }
  | .abandoned => { c with jobsAbandoned := satAdd c.jobsAbandoned 1 }

/-- A record number is offered for the watermark (R13). -/
def State.offerWatermark (s : State) (r : Nat) : State :=
  if s.hdr.watermark < r then { s with hdr := { s.hdr with watermark := r } }.writeHeader else s

/-- A job ends: unpinned, the watermark offered, counted, its entry freed (R164). -/
def State.endJob (s : State) (j : Job) (e : JobEnd) : State :=
  let s := { s with store := j.records.foldl Store.unpin s.store }
  let s := if e = .done ∧ j.kind = .sagList then
      match j.records.getLast? with
      | some r => s.offerWatermark r
      | none => s
    else s
  { s with ctr := s.ctr.jobEnded e, rep := { s.rep with jobs := s.rep.jobs.filter fun x => x.entry != j.entry } }

/-- A job is abandoned with a DROP to its printer, handed over before the entry is freed (R164). -/
def State.abandon (s : State) (j : Job) : Exchange :=
  (s.post j.printer true (.drop j.number)).andThen fun s => (s.endJob j .abandoned, [])

/-- GO takes an ASKED or QUEUED job to SENDING with its first block (R160 to R162). -/
def State.goAhead (s : State) (j : Job) : Exchange :=
  match j.state with
  | .asked | .queued => s.composeBlock { j with state := .sending, answerTimer := none, refreshTimer := none }
  | .sending => (s, [])

/-- QUEUED takes an ASKED job to QUEUED, with the refresh timer (R160, R161). -/
def State.nowQueued (s : State) (j : Job) : State :=
  match j.state with
  | .asked => s.setJob { j with state := .queued, answerTimer := none, refreshTimer := s.exchangeTimer j 10000 }
  | .queued | .sending => s

/-- REFUSED ends an ASKED or QUEUED job (R160, R161). -/
def State.nowRefused (s : State) (j : Job) : State :=
  match j.state with
  | .asked | .queued => s.endJob j .refused
  | .sending => s

/-- TAKEN for the current block sends the next block or ends the job DONE (R162, R163). -/
def State.blockTaken (s : State) (j : Job) (k : Nat) : Exchange :=
  match j.state, j.current with
  | .sending, some b =>
    if b.seq = k then
      let j := { j with answerTimer := none, holdTimer := none, heldTicks := s.heldTotal j, heldSince := none }
      if b.line.isSome then s.composeBlock j else (s.endJob j .done, [])
    else (s, [])
  | _, _ => (s, [])

/-- HELD for the current block puts it into holding (R163). -/
def State.blockHeld (s : State) (j : Job) (k : Nat) : State :=
  match j.state, j.current with
  | .sending, some b =>
    if b.seq = k then
      s.setJob { j with current := some { b with sends := 0 }, answerTimer := none, holdTimer := some (s.inMs 2000),
                        heldSince := some (j.heldSince.getD s.clock.now) }
    else s
  | _, _ => s

/-- A GO, TAKEN or HELD for an unknown job is answered DROP (R165). -/
def State.unknownJob (s : State) (printer : Party) (number : Nat) : Exchange := s.post printer true (.drop number)

/-- What the report engine takes (R160 to R165). -/
def State.originTake (s : State) (printer : Party) (m : Payload) : Exchange :=
  match m with
  | .queued n => match s.jobOf printer n with
    | some j => (s.nowQueued j, [])
    | none => (s, [])
  | .refused n _ => match s.jobOf printer n with
    | some j => (s.nowRefused j, [])
    | none => (s, [])
  | .go n => match s.jobOf printer n with
    | some j => s.goAhead j
    | none => s.unknownJob printer n
  | .taken n k => match s.jobOf printer n with
    | some j => s.blockTaken j k
    | none => s.unknownJob printer n
  | .held n k => match s.jobOf printer n with
    | some j => (s.blockHeld j k, [])
    | none => s.unknownJob printer n
  | .drop n => match s.jobOf printer n with
    | some j => (s.endJob j .abandoned, [])
    | none => (s, [])
  | _ => (s, [])

/-! ## Hand-overs at this station (R166) -/

/-- One hand-over is taken. -/
def State.takeHand (s : State) (h : Hand) : Exchange := if h.toService then s.serviceTake .own h.msg else s.originTake .own h.msg

/-- Takes the hand-overs in the order of their making, with those that they cause; a buffer of two lines bounds how far one
step can go, well below the fuel given. -/
def runHands : Nat → State → List Hand → State
  | 0, s, _ => s
  | _ + 1, s, [] => s
  | n + 1, s, h :: rest => runHands n (s.takeHand h).1 (rest ++ (s.takeHand h).2)

/-- The state once every hand-over has been taken. -/
def Exchange.run (x : Exchange) : State := runHands 32 x.1 x.2

/-! ## Print requests (9.1) -/

/-- A fresh beacon of the entry reported a printer (R157). -/
def RosterEntry.hasPrinter (now : Nat) (e : RosterEntry) : Bool :=
  match e.beacon with
  | some b => e.fresh now && b.flags.testBit 1
  | none => false

/-- The chosen printer: the lowest station number, this station included (R157). -/
def State.printerChoice (s : State) : Option Party :=
  let other := (s.line.roster.find? (RosterEntry.hasPrinter s.clock.now)).map (·.station)
  if s.straps.printer then
    match other with
    | some n => if n < s.stationNo then some (.station n) else some .own
    | none => some .own
  else other.map Party.station

/-- The next job number after `last`, the numbers held being passed over (R156). -/
def nextJobNumber (held : List Nat) (last : Nat) : Nat :=
  let n := if last = 255 then 1 else last + 1
  if held.contains n then (if n = 255 then 1 else n + 1) else n

/-- The candidates of a report kind in the order taken, and the limit (R158). -/
def State.candidatesFor (s : State) (k : ReportKind) (count : Nat) : List Nat × Nat :=
  match k with
  | .sagList => (((s.store.sealedOf .sag).map (·.img.record)).filter fun r => s.hdr.watermark < r, 64)
  | .harmonicSummary => (((s.store.sealedOf .interval).map (·.img.record)).reverse, count)
  | .noteList => ((s.store.sealedOf .note).map (·.img.record), 64)
  | .surveySheet => ([], 0)

/-- The record list, ascending, and the more count (R158). A candidate whose pin is refused is left out. -/
def State.recordList (s : State) (k : ReportKind) (count : Nat) : List Nat × Nat :=
  let c := s.candidatesFor k count
  let granted := c.1.filter s.store.canPin
  let more := if k = .harmonicSummary then 0 else min (granted.length - c.2) 65535
  (sortBy id (granted.take c.2), more)

/-- A job as its acceptance sets it up (R159). -/
def newJob (entry number : Nat) (kind : ReportKind) (count : Nat) (urgent : Bool) (printer : Party) (records : List Nat)
    (more : Nat) : Job :=
  { entry := entry, number := number, kind := kind, count := count, urgent := urgent, printer := printer, state := .asked,
    records := records, more := more, nextSeq := 1, current := none, heldTicks := 0, heldSince := none, askSends := 0,
    answerTimer := none, refreshTimer := none, holdTimer := none, cursor := { group := 0, item := 0, line := 0, count := 0 } }

/-- Acceptance of a PRINT REQUEST (R159). Of two free entries the job takes entry 0 (log 53). -/
def State.acceptPrint (s : State) (sender : Nat) (kind : ReportKind) (count : Nat) (urgent : Bool) (printer : Party) : Exchange :=
  let entry := if (s.jobAt 0).isNone then 0 else 1
  let number := nextJobNumber (s.rep.jobs.map (·.number)) s.rep.lastJob
  let list := s.recordList kind count
  let j := newJob entry number kind count urgent printer list.1 list.2
  let s := { s with store := list.1.foldl Store.pin s.store,
                    rep := { jobs := insertBy (·.entry) j s.rep.jobs, lastJob := number } }
  (s.answer 4 0 number false sender).askPrinter j

/-- A PRINT REQUEST is tested and answered (R155). In IDLE every one is answered NO SURVEY (R1, R155), so that the SURVEY SHEET in
IDLE of which R11 and R172 speak is never printed: the model's choice between the rules (log 59). -/
def State.printRequest (s : State) (sender : Nat) (f : PrintRequestFrame) : Exchange :=
  match ReportKind.ofCode f.kind.toNat with
  | none => (s, [])
  | some k =>
    if s.hdr.state = .idle then (s.answer 4 3 0 false sender, [])
    else if 2 ≤ s.rep.jobs.length then (s.answer 4 4 0 false sender, [])
    else match s.printerChoice with
      | none => (s.answer 4 5 0 false sender, [])
      | some p => s.acceptPrint sender k (if k = .harmonicSummary then clamp 1 24 f.count.toNat else 0) (f.cls.toNat == 1) p

/-! ## Watching the roster (R161, R178, R194) -/

/-- The QUEUED jobs whose printer is a station are abandoned without a frame (R161). -/
def State.loseQueued (s : State) (n : Nat) : State :=
  (s.rep.jobs.filter fun j => j.printer == .station n && j.state == .queued).foldl (fun s j => s.endJob j .abandoned) s

/-- The WAITING entries of a station are removed from the print queue (R178). -/
def Printer.loseOrigin (p : Printer) (n : Nat) : Printer :=
  { p with queue := p.queue.filter fun e => !(e.origin == .station n && !e.printing) }

end Sys2Proof.Machine
end

