-- ==== Sys2Proof/Machine/Survey.lean ====
section
/-!
DEFINITION. Survey control (chapter 1): the parameters of SURVEY OPEN, opening and closing a survey, adoption, parking, the
loss of supply and the restart.
-/

namespace Sys2Proof.Machine

/-! ## Parameters (R3) -/

/-- The nominal frequency in force (R3). -/
def hzOf (v : Nat) : Nat := if v < 55 then 50 else 60

/-- The parameters in force of a SURVEY OPEN (R3); the label keeps its length, with its characters as kept (R200). -/
def Params.ofFrame (f : SurveyOpenFrame) : Params :=
  { un := clamp 500 5000 f.un.toNat, hz := hzOf f.hz.toNat, ts := clamp 5000 9500 f.ts.toNat, ti := clamp 100 2000 f.ti.toNat,
    tw := clamp 10500 15000 f.tw.toNat, h := clamp 50 500 f.h.toNat, k := clamp 1 3000 f.k.toNat, qh := clamp 25 90 f.qh.toNat,
    send := f.send.toNat != 0, accept := f.accept.toNat != 0, hours := clamp 0 23 f.hours.toNat,
    minutes := clamp 0 59 f.minutes.toNat, seconds := clamp 0 59 f.seconds.toNat, label := keepText f.label }

/-- The fields that R3 clamps, as received. -/
def rawFields (f : SurveyOpenFrame) : List Nat :=
  [f.un.toNat, f.hz.toNat, f.ts.toNat, f.ti.toNat, f.tw.toNat, f.h.toNat, f.k.toNat, f.qh.toNat, f.hours.toNat,
   f.minutes.toNat, f.seconds.toNat]

/-- The same fields in force. -/
def Params.inForce (p : Params) : List Nat :=
  [p.un, p.hz, p.ts, p.ti, p.tw, p.h, p.k, p.qh, p.hours, p.minutes, p.seconds]

/-- One or more values were changed by R3. -/
def wasClamped (f : SurveyOpenFrame) : Bool := rawFields f != (Params.ofFrame f).inForce

/-! ## Opening (R4) -/

/-- Stage 1: a job is abandoned, with a DROP when it is past ASKED (R4, R164). -/
def State.abandonForSurvey (s : State) (j : Job) : State :=
  if j.state = .asked then s.endJob j .abandoned else (s.abandon j).run

/-- Stage 1 of an acceptance: every origin job is abandoned (R4), the one in entry 0 first (log 53). -/
def State.abandonJobs (s : State) : State := s.rep.jobs.foldl State.abandonForSurvey s

/-- Stages 2 to 7 of an acceptance (R4, R22). Survey time is 0 at the end of the frame and counts from there, also while the
acceptance waits for a page write (R4 stage 5; log 23). -/
def State.finishOpening (s : State) (r : OpenRequest) : State :=
  let s := { s with
    sup := { s.sup with opening := none }
    store := s.store.clear
    hdr := { number := r.number, state := .recording, params := r.params, checkpoint := 0, watermark := 0, log := [] }
    ctr := {}
    notes := []
    ev := { event := none, seq := 1 }
    clock := { s.clock with survey := 0, phase := 0 }
    tb := Timebase.start r.params.hz s.clock.now
    lev := freshLevel s.channels
    cap := { ring := [], slots := [] }
    har := freshHarmonic 0 }
  let s := s.writeHeader
  let since := s.clock.now - r.frameEnd
  let s := { s with clock := { s.clock with survey := min (since / Config.ticksPerMs) Config.surveyMax, phase := since % Config.ticksPerMs } }
  s.answer 1 0 0 r.clamped r.sender

/-- A SURVEY OPEN is accepted (R4): stage 1 at once, and the others when the page write under way has finished. -/
def State.acceptSurvey (s : State) (r : OpenRequest) : State :=
  let s := s.abandonJobs
  if s.store.pageUnderWay then { s with sup := { s.sup with opening := some r } } else s.finishOpening r

/-- What the acceptance of a SURVEY OPEN carries from the end of its frame to its last stage. -/
def State.openRequest (s : State) (sender : Nat) (f : SurveyOpenFrame) : OpenRequest :=
  { sender := sender, number := f.number.toNat, params := Params.ofFrame f, clamped := wasClamped f, frameEnd := s.clock.now }

/-- A SURVEY OPEN is taken (R4, R5). -/
def State.surveyOpen (s : State) (sender : Nat) (f : SurveyOpenFrame) : State :=
  let n := f.number.toNat
  if n = 0 then s
  else match s.hdr.state with
    | .idle => s.acceptSurvey (s.openRequest sender f)
    | .closed =>
      if n = s.hdr.number then s.answer 1 1 0 false sender
      else s.acceptSurvey (s.openRequest sender f)
    | .recording | .rejoining => if n = s.hdr.number then s else s.answer 1 2 0 false sender

/-! ## Closing (R6 to R8) and adoption (R18, R19) -/

/-- The timebase enters STOPPED (R24). -/
def State.stopTimebase (s : State) : State := { s with tb := { s.tb with state := .stopped } }

/-- The stages of a close or of parking that seal the open event and the captures (R6 stages 1 and 2, R20 stages 2 and 3). The
closing writes of the captures sealed CUT or SUPPLY are made in the second, which lasts until they have ended (R95). -/
def State.beginSealing (s : State) (code : Nat) (cause : CapOutcome) (goesOn : SealingEnd) : State :=
  let records := s.cap.runningRecords
  let s := (s.sealEvent code s.clock.survey).sealCaptures cause
  { s with sup := { s.sup with sealing := some { records := records, goesOn := goesOn } } }

/-- The stages 3 to 5 of a close (R6), and the answer to each SURVEY CLOSE that asked for it (R7). -/
def State.finishClose (s : State) (asked : List Nat) : State :=
  let s := (s.stopHarmonic false).stopTimebase
  let s := { s with hdr := { s.hdr with state := .closed } }.writeHeader
  asked.foldl (fun s sender => s.answer 2 0 0 false sender) s

/-- Stages 4 to 7 of parking (R20): the state from which the part parks stays in the header. -/
def State.finishPark (s : State) : State :=
  let s := s.stopHarmonic true
  let s := s.rep.jobs.foldl (fun s j => s.endJob j .abandoned) s
  let s := s.writeHeader.stopTimebase
  { s with ckpt := none, line := { s.line with beaconTimer := none },
           prn := { s.prn with inactivity := none, goTimer := none } }

/-- The sealing stage ends, and the close or parking goes on, once the closing writes of its captures have ended (R95). -/
def State.endSealing (s : State) : State :=
  match s.sup.sealing with
  | some x =>
    if x.records.all s.store.closingEnded then
      let s := { s with sup := { s.sup with sealing := none } }
      match x.goesOn with
      | .close asked => s.finishClose asked
      | .park => s.finishPark
    else s
  | none => s

/-- The survey closes (R6): where no capture runs, within this command. A SURVEY CLOSE that comes upon a close under way is
answered with it, and nothing else that asks for a close changes it (log 63). -/
def State.closeSurvey (s : State) (asked : List Nat) : State :=
  match s.sup.sealing with
  | none => (s.beginSealing 2 .cut (.close asked)).endSealing
  | some ⟨records, .close earlier⟩ => { s with sup := { s.sup with sealing := some ⟨records, .close (earlier ++ asked)⟩ } }
  | some ⟨_, .park⟩ => s

/-- A SURVEY CLOSE is taken (R7). -/
def State.surveyClose (s : State) (sender n : Nat) : State :=
  if n ≠ s.hdr.number then s
  else match s.hdr.state with
    | .recording | .rejoining => s.closeSurvey [sender]
    | .closed => s.answer 2 0 0 false sender
    | .idle => s

/-- The survey time limit (R8). -/
def State.limitTest (s : State) : State := if s.inSurvey && Config.surveyLimit ≤ s.clock.survey then s.closeSurvey [] else s

/-- Survey time is adopted from a beacon (R18), and the limit is tested (R8). -/
def State.adopt (s : State) (t : Nat) : State :=
  let s := s.setSurvey t 0
  ({ s with hdr := { s.hdr with state := .recording } }.writeHeader).limitTest

/-- A beacon is examined in REJOINING (R18, R19). -/
def State.rejoin (s : State) (b : BeaconInfo) : State :=
  if s.hdr.state = .rejoining ∧ b.number = s.hdr.number then
    if b.state = HeaderState.recording.code then s.adopt b.time
    else if b.state = HeaderState.closed.code then s.closeSurvey []
    else s
  else s

/-! ## Parking (R20, R21) -/

/-- Whether a queued write survives the start of parking: a page write of a one-page record that is not under way is not
made (example 8.8; log 22). -/
def Store.keptAtParking (st : Store) : StoreWrite → Bool
  | .page r _ _ _ => match st.entryOf r with
    | some e => e.img.tag == .waveform
    | none => false
  | _ => true

/-- Stages 2 to 7 of parking (R20): where no capture runs, within this command. -/
def State.runPark (s : State) : State :=
  let s := { s with sup := { s.sup with parkWait := false },
                    store := { s.store with writes := s.store.writes.filter s.store.keptAtParking } }
  (s.beginSealing 3 .supply .park).endSealing

/-- The part enters PARKED (R20): the line stops at once, and the other stages follow when the page write under way has
finished. Of the measuring blocks nothing runs from here on, while the EVENT lamp goes dark with the open event's seal at stage 2
and the timebase's state becomes STOPPED at stage 7: the model's choice (R1, R24; log 61). -/
def State.enterPark (s : State) : State :=
  let s := { s with mode := .parked, line := { s.line with queue := [] }, sup := { s.sup with parkDue := false } }
  if s.store.pageUnderWay then { s with sup := { s.sup with parkWait := true } } else s.runPark

/-- SUPPLY WARN takes a running part to PARKED; an acceptance or a close under way is completed first (R20). -/
def State.park (s : State) : State :=
  if s.sup.opening.isSome || s.sup.sealing.isSome then { s with sup := { s.sup with parkDue := true } } else s.enterPark

/-- Parking has reached its stage 7: its writes have all finished (R20, R21; log 21). -/
def State.parkingDone (s : State) : Bool :=
  s.mode == .parked && !s.sup.parkWait && s.sup.sealing.isNone && s.store.writes.isEmpty

/-! ## Loss of supply and restart (R15 to R17) -/

/-- Volatile state is lost, and a write under way is cut off (R16 stage 1, R12, R120, R132). -/
def State.cutOff (s : State) : State :=
  { s with
    sup := { releaseTimer := none, restartDue := none, parkWait := false, parkDue := false, opening := none, sealing := none }
    ckpt := none
    tb := { s.tb with state := .stopped }
    lev := freshLevel s.channels
    ev := { event := none, seq := 1 }
    cap := { ring := [], slots := [] }
    har := freshHarmonic 0
    store := s.store.cut
    notes := []
    rep := { jobs := [], lastJob := 0 }
    prn := freshPrinter false
    line := { queue := [], roster := [], muted := s.line.muted, beaconTimer := none }
    ctr := {} }

/-- The sequence that a record names when its origin is station `own` (R16 stage 7, R199). -/
def Store.ownSequence (st : Store) (own : Nat) (e : Entry) : Option Nat :=
  match e.img.tag with
  | .waveform => if st.field e.img 2 1 = own then some (st.field e.img 4 2) else none
  | .sag => if e.img.outcome ≠ .lostPower ∧ st.field e.img 1 1 = own then some (st.field e.img 2 2) else none
  | .interval | .note => none

/-- The event sequence counter after a restart (R16 stage 7). -/
def Store.restoredSeq (st : Store) (own : Nat) : Nat :=
  nextSeq ((st.dir.filterMap (st.ownSequence own)).foldl max 0)

/-- The survey state after a restart (R16 stage 8). -/
def HeaderState.afterRestart : HeaderState → HeaderState
  | .recording => .rejoining
  | .rejoining => .rejoining
  | .closed => .closed
  | .idle => .idle

/-- Stage 3: page 0 is read, and the store with it, or the store is formatted. The header and the store, with the number of
pages that a page test found BAD (R16, R137, R139). -/
def Store.atRestart (st : Store) (failing : List Nat) : Header × Store × Nat :=
  match st.nv.header with
  | some h => (h, st.readRegion failing)
  | none =>
    let out := st.format failing
    (freshHeader, out.1.push (.header freshHeader false), out.2)

/-- The header with the entry of this restart in its log, and the survey state after it (R14, R16 stages 4 and 8). -/
def Header.restarted (h : Header) (c : Cause) : Header :=
  { h with log := pushBounded 8 h.log { cause := c, checkpoint := h.checkpoint }, state := h.state.afterRestart }

/-- The stages of a restart (R16), and the blocks as they stand after it (R17). The part takes frames and samples from here on,
while the restart's writes wait to be verified (log 25), and a timebase that is STOPPED after it has its other items as at a
start (log 9). -/
def State.runRestart (s : State) (c : Cause) (i : RestartInputs) : State :=
  let s := { s.cutOff with mode := .running, straps := i.straps, lastCause := c }
  let read := s.store.atRestart i.failingPages
  let st := read.2.1.losePower
  let hdr := read.1.restarted c
  let rejoining := hdr.state == .rejoining
  let tb := Timebase.start hdr.params.hz s.clock.now
  let s := { s with
    clock := { s.clock with survey := read.1.checkpoint, phase := 0 }
    hdr := hdr
    tb := if rejoining then tb else { tb with state := .stopped }
    lev := freshLevel s.channels
    ev := { event := none, seq := st.restoredSeq s.stationNo }
    har := freshHarmonic (if rejoining then st.newestInterval else 0)
    store := st
    notes := st.rebuildNotes read.1.checkpoint
    prn := freshPrinter i.straps.printer
    line := { queue := [], roster := [], muted := s.ownNumber.isNone, beaconTimer := s.ownNumber.map fun n => s.inMs (50 * n) }
    ctr := { badPages := satAdd 0 read.2.2 } }
  s.writeHeader

/-- A restart; SUPPLY WARN still asserted at its end parks the part at once (R16, R21). -/
def State.restart (s : State) (c : Cause) (i : RestartInputs) : State :=
  let s := s.runRestart c i
  if s.pins.supplyWarn then s.enterPark else s

/-- A close or parking goes on when a write of the store port ends the closing writes of its captures (R95); a close that
SUPPLY WARN came upon is followed by parking (R20). -/
def State.sealingGoesOn (s : State) : State :=
  match s.sup.sealing with
  | some _ =>
    let s := s.endSealing
    if s.isRunning && s.sup.sealing.isNone && s.sup.parkDue then s.enterPark else s
  | none => s

/-- After a write of the store port has finished: a sealing stage may end, and a restart that waited for parking follows (R21,
R95). -/
def State.afterWrite (s : State) : State :=
  let s := s.sealingGoesOn
  match s.sup.restartDue with
  | some i => if s.parkingDone then s.restart .supplyDip i else s
  | none => s

/-- After a page write has finished that no repeat follows: an acceptance or parking that waited for it goes on (R4, R20,
R21). -/
def State.afterPage (s : State) : State :=
  match s.sup.opening with
  | some r =>
    let s := s.finishOpening r
    if s.sup.parkDue then s.enterPark else s
  | none => if s.sup.parkWait then s.runPark else s

end Sys2Proof.Machine
end

