-- ==== Sys2Proof/Machine/Wire.lean ====
section
/-!
DEFINITION. Frames as bits on the line (10.1, 10.2, 10.5, 11.2): the fields of a frame, its CRC, bit stuffing, the checks of
a receiver, the payloads of the frames taken as commands, and the payloads of the frames this part sends.
-/

namespace Sys2Proof.Machine

/-! ## Fields and bits (R180, R181) -/

/-- The fields of a frame that carry content (R181); the length field is the payload's length. -/
structure RawFrame where
  priority  : BitVec 3
  sender    : BitVec 4
  kind      : BitVec 5
  addressee : BitVec 4
  payload   : List Byte
  deriving DecidableEq, Repr

/-- The bits that the CRC covers: kind, addressee, length and payload (R181). -/
def RawFrame.covered (f : RawFrame) : List Bool :=
  fieldBits 5 f.kind.toNat ++ fieldBits 4 f.addressee.toNat ++ fieldBits 6 f.payload.length ++ payloadBits f.payload

/-- The bits from the start bit through the CRC, before stuffing (R181). -/
def RawFrame.plainBits (f : RawFrame) : List Bool :=
  false :: fieldBits 3 f.priority.toNat ++ fieldBits 4 f.sender.toNat ++ f.covered ++ fieldBits 16 (crcOf f.covered).toNat

/-- Inserts a bit of the opposite level after every run of 5 equal bits; the stuff bit counts toward the next run (R180).
`last` is the level of the run so far and `n` its length. -/
def stuff : Bool → Nat → List Bool → List Bool
  | _, _, [] => []
  | last, n, b :: bs =>
    if (if b = last then n + 1 else 1) = 5 then b :: (!b) :: stuff (!b) 1 bs
    else b :: stuff b (if b = last then n + 1 else 1) bs

/-- The end mark: 7 recessive bits, not stuffed (R180, R181). -/
def endMark : List Bool := List.replicate 7 true

/-- A frame as it stands on the line (R180, R181). -/
def RawFrame.send (f : RawFrame) : List Bool := stuff true 0 f.plainBits ++ endMark

/-! ## Receiving (R187) -/

/-- Where a receiver stands in the stuffed part of a frame: the level and length of the run, and the bits still to come. -/
structure Cursor5 where
  last : Bool
  n    : Nat
  rest : List Bool
  deriving DecidableEq, Repr

/-- Reads `k` bits with their stuff bits removed; none at a stuff error or at the end of the bits (R180, R187). -/
def readBits : Nat → Cursor5 → Option (List Bool × Cursor5)
  | 0, c => some ([], c)
  | k + 1, c =>
    match c.rest with
    | [] => none
    | b :: bs =>
      if (if b = c.last then c.n + 1 else 1) = 5 then
        match bs with
        | [] => none
        | x :: xs => if x = b then none else (readBits k { last := x, n := 1, rest := xs }).map fun r => (b :: r.1, r.2)
      else (readBits k { last := b, n := if b = c.last then c.n + 1 else 1, rest := bs }).map fun r => (b :: r.1, r.2)

/-- The bytes of a run of bits. -/
def bytesOfBits : Nat → List Bool → List Byte
  | 0, _ => []
  | k + 1, bs => BitVec.ofNat 8 (bitsValue (bs.take 8)) :: bytesOfBits k (bs.drop 8)

/-- A received frame as far as its fields, CRC and end mark: none when it is bad (R187, the first four tests). -/
def receiveRaw (bits : List Bool) : Option RawFrame :=
  match readBits 23 { last := true, n := 0, rest := bits } with
  | none => none
  | some (h, c) =>
    let len := bitsValue (h.drop 17)
    if h.head? = some false ∧ len ≤ 48 then
      match readBits (8 * len + 16) c with
      | none => none
      | some (d, e) =>
        let p := d.take (8 * len)
        if (crcOf (h.drop 8 ++ p)).toNat = bitsValue (d.drop (8 * len)) ∧ e.rest = endMark then
          some { priority := BitVec.ofNat 3 (bitsValue ((h.drop 1).take 3)), sender := BitVec.ofNat 4 (bitsValue ((h.drop 4).take 4)),
                 kind := BitVec.ofNat 5 (bitsValue ((h.drop 8).take 5)), addressee := BitVec.ofNat 4 (bitsValue ((h.drop 13).take 4)),
                 payload := bytesOfBits len p }
        else none
    else none

/-! ## Payload lengths (R198) -/

/-- The byte of a payload at an offset. -/
def byteAt (p : List Byte) (i : Nat) : Nat := (p.getD i 0).toNat

/-- The length and count tests of each known kind; a frame of an unknown kind is not measured (R187, R198). -/
def lengthOk (kind : BitVec 5) (p : List Byte) : Bool :=
  match kind.toNat with
  | 0x01 => p.length == 38 && decide (byteAt p 21 ≤ 16)
  | 0x02 => p.length == 2
  | 0x03 => decide (byteAt p 6 ≤ 40) && p.length == 7 + byteAt p 6
  | 0x04 => p.length == 3
  | 0x05 => p.length == 6
  | 0x06 => p.length == 0
  | 0x08 => p.length == 4
  | 0x09 => decide (byteAt p 7 ≤ 40) && p.length == 8 + byteAt p 7
  | 0x0A => p.length == 47
  | 0x10 => p.length == 14
  | 0x11 => p.length == 9
  | 0x14 => p.length == 3
  | 0x15 | 0x17 | 0x1B => p.length == 1
  | 0x16 => p.length == 2
  | 0x18 => decide (byteAt p 4 ≤ 40) && p.length == 5 + byteAt p 4 && !(byteAt p 3 == 1 && byteAt p 4 != 0)
  | 0x19 | 0x1A => p.length == 3
  | _ => true

/-! ## The frames taken as commands (R198) -/

/-- Big-endian bytes of a two-byte field. -/
def be16 (x : BitVec 16) : List Byte := beBytes 2 x.toNat

/-- Big-endian bytes of a four-byte field. -/
def be32 (x : BitVec 32) : List Byte := beBytes 4 x.toNat

/-- The two-byte field at an offset of a payload. -/
def get16 (p : List Byte) (i : Nat) : BitVec 16 := BitVec.ofNat 16 (fromBytes ((p.drop i).take 2))

/-- The four-byte field at an offset of a payload. -/
def get32 (p : List Byte) (i : Nat) : BitVec 32 := BitVec.ofNat 32 (fromBytes ((p.drop i).take 4))

/-- The byte field at an offset of a payload. -/
def get8 (p : List Byte) (i : Nat) : BitVec 8 := p.getD i 0

/-- The command that a valid frame is (R188, R197, R198). -/
def commandOf (f : RawFrame) : Instr :=
  let rx : Rx := { sender := f.sender, addressee := f.addressee }
  let p := f.payload
  match f.kind.toNat with
  | 0x01 => .surveyOpen rx
      { number := get16 p 0, un := get16 p 2, hz := get8 p 4, ts := get16 p 5, ti := get16 p 7, tw := get16 p 9, h := get16 p 11,
        k := get16 p 13, qh := get8 p 15, send := get8 p 16, accept := get8 p 17, hours := get8 p 18, minutes := get8 p 19,
        seconds := get8 p 20, label := (p.drop 22).take (byteAt p 21) }
  | 0x02 => .surveyClose rx (get16 p 0)
  | 0x03 => .note rx { id := get16 p 0, kind := get8 p 2, span := get8 p 3, corrects := get16 p 4, text := p.drop 7 }
  | 0x04 => .printRequest rx { kind := get8 p 0, count := get8 p 1, cls := get8 p 2 }
  | 0x05 => .recordRead rx (get32 p 0) (get16 p 4)
  | 0x06 => .stationQuery rx
  | 0x10 => .beacon rx { number := get16 p 0, state := get8 p 2, flags := get8 p 3, time := get32 p 4, tbState := get8 p 8,
                         freq := get32 p 9, cause := get8 p 13 }
  | 0x11 => .trigger rx { number := get16 p 0, seq := get16 p 2, kind := get8 p 4, start := get32 p 5 }
  | 0x14 => .printAsk rx { job := get8 p 0, kind := get8 p 1, cls := get8 p 2 }
  | 0x15 => .queued rx (get8 p 0)
  | 0x16 => .refused rx (get8 p 0) (get8 p 1)
  | 0x17 => .go rx (get8 p 0)
  | 0x18 => .printBlock rx { job := get8 p 0, seq := get16 p 1, mark := get8 p 3, text := p.drop 5 }
  | 0x19 => .taken rx (get8 p 0) (get16 p 1)
  | 0x1A => .held rx (get8 p 0) (get16 p 1)
  | 0x1B => .drop rx (get8 p 0)
  | _ => .otherFrame rx f.kind

/-- A received run of bits as the command it is, none when the frame is bad or its sender field is 15 (R187, R188). -/
def receiveCommand (bits : List Bool) : Option Instr :=
  match receiveRaw bits with
  | some f => if lengthOk f.kind f.payload ∧ f.sender ≠ 15 then some (commandOf f) else none
  | none => none

/-- The label area of SURVEY OPEN: the count characters and zeros to its end (R198, R200). -/
def labelArea (l : List Byte) : List Byte := l ++ List.replicate (16 - l.length) 0

/-- The frame that another station sends for a command, at priority `pr`; none for a command that is no frame of a kind
that R198 lays out. -/
def frameOf (pr : BitVec 3) : Instr → Option RawFrame
  | .surveyOpen rx f => some ⟨pr, rx.sender, 0x01, rx.addressee,
      be16 f.number ++ be16 f.un ++ [f.hz] ++ be16 f.ts ++ be16 f.ti ++ be16 f.tw ++ be16 f.h ++ be16 f.k ++
        [f.qh, f.send, f.accept, f.hours, f.minutes, f.seconds, BitVec.ofNat 8 f.label.length] ++ labelArea f.label⟩
  | .surveyClose rx n => some ⟨pr, rx.sender, 0x02, rx.addressee, be16 n⟩
  | .note rx f => some ⟨pr, rx.sender, 0x03, rx.addressee,
      be16 f.id ++ [f.kind, f.span] ++ be16 f.corrects ++ [BitVec.ofNat 8 f.text.length] ++ f.text⟩
  | .printRequest rx f => some ⟨pr, rx.sender, 0x04, rx.addressee, [f.kind, f.count, f.cls]⟩
  | .recordRead rx r c => some ⟨pr, rx.sender, 0x05, rx.addressee, be32 r ++ be16 c⟩
  | .stationQuery rx => some ⟨pr, rx.sender, 0x06, rx.addressee, []⟩
  | .beacon rx f => some ⟨pr, rx.sender, 0x10, rx.addressee,
      be16 f.number ++ [f.state, f.flags] ++ be32 f.time ++ [f.tbState] ++ be32 f.freq ++ [f.cause]⟩
  | .trigger rx f => some ⟨pr, rx.sender, 0x11, rx.addressee, be16 f.number ++ be16 f.seq ++ [f.kind] ++ be32 f.start⟩
  | .printAsk rx f => some ⟨pr, rx.sender, 0x14, rx.addressee, [f.job, f.kind, f.cls]⟩
  | .queued rx j => some ⟨pr, rx.sender, 0x15, rx.addressee, [j]⟩
  | .refused rx j r => some ⟨pr, rx.sender, 0x16, rx.addressee, [j, r]⟩
  | .go rx j => some ⟨pr, rx.sender, 0x17, rx.addressee, [j]⟩
  | .printBlock rx f => some ⟨pr, rx.sender, 0x18, rx.addressee,
      [f.job] ++ be16 f.seq ++ [f.mark, BitVec.ofNat 8 f.text.length] ++ f.text⟩
  | .taken rx j k => some ⟨pr, rx.sender, 0x19, rx.addressee, [j] ++ be16 k⟩
  | .held rx j k => some ⟨pr, rx.sender, 0x1A, rx.addressee, [j] ++ be16 k⟩
  | .drop rx j => some ⟨pr, rx.sender, 0x1B, rx.addressee, [j]⟩
  | .powerOn .. | .supplyLoss | .pinReset .. | .supplyWarn | .supplyWarnRelease | .releaseTimer .. | .surveyTimeLimit
  | .checkpointTimer | .instant .. | .crossingTimeout | .holdoverExpiry | .peerSourceLapse | .captureComplete .. | .blockFull
  | .blockArithmeticDone | .pageWriteComplete .. | .systemWriteComplete .. | .noteExpiry .. | .askAnswerTimer ..
  | .refreshTimer .. | .blockAnswerTimer .. | .holdTimer .. | .holdingLimit .. | .goTimer | .inactivityTimer | .linePrinted
  | .paperOut | .paperIn | .ready .. | .lineIdle | .arbitrationLost | .bitError | .frameSent | .triggerStale | .badFrame ..
  | .stationConflict | .otherFrame .. | .beaconTimer | .rosterExpiry .. | .headerWriteComplete .. => none

/-! ## The frames this part sends (R184, R198) -/

/-- The kind code of a payload (R197). -/
def Payload.kind : Payload → BitVec 5
  | .requestAnswer .. => 0x08
  | .recordData .. => 0x09
  | .stationReport .. => 0x0A
  | .beacon .. => 0x10
  | .trigger .. => 0x11
  | .printAsk .. => 0x14
  | .queued .. => 0x15
  | .refused .. => 0x16
  | .go .. => 0x17
  | .printBlock .. => 0x18
  | .taken .. => 0x19
  | .held .. => 0x1A
  | .drop .. => 0x1B

/-- The bytes of a payload (R198). A beacon has none before an attempt has begun (R192). -/
def Payload.bytes : Payload → List Byte
  | .requestAnswer r c j f => beBytes 1 r ++ beBytes 1 c ++ beBytes 1 j ++ beBytes 1 (flagByte [f])
  | .recordData r c st bs => beBytes 4 r ++ beBytes 2 c ++ beBytes 1 st ++ beBytes 1 bs.length ++ bs
  | .stationReport st n t fl tb fr cs =>
    beBytes 1 st ++ beBytes 2 n ++ beBytes 4 t ++ beBytes 1 fl ++ beBytes 1 tb ++ beBytes 4 fr ++ cs.flatMap (beBytes 2)
  | .beacon none => []
  | .beacon (some b) =>
    beBytes 2 b.number ++ beBytes 1 b.state ++ beBytes 1 b.flags ++ beBytes 4 b.time ++ beBytes 1 b.tbState ++ beBytes 4 b.freq ++
      beBytes 1 b.cause
  | .trigger n q k t => beBytes 2 n ++ beBytes 2 q ++ beBytes 1 k ++ beBytes 4 t
  | .printAsk j k c => beBytes 1 j ++ beBytes 1 k ++ beBytes 1 c
  | .queued j => beBytes 1 j
  | .refused j r => beBytes 1 j ++ beBytes 1 r
  | .go j => beBytes 1 j
  | .printBlock j q m t => beBytes 1 j ++ beBytes 2 q ++ beBytes 1 m ++ beBytes 1 t.length ++ t
  | .taken j q => beBytes 1 j ++ beBytes 2 q
  | .held j q => beBytes 1 j ++ beBytes 2 q
  | .drop j => beBytes 1 j

/-- A frame of the transmit queue as station `sender` sends it (R181, R184). -/
def TxFrame.raw (f : TxFrame) (sender : Nat) : RawFrame :=
  { priority := BitVec.ofNat 3 f.payload.priority, sender := BitVec.ofNat 4 sender, kind := f.payload.kind,
    addressee := BitVec.ofNat 4 f.addressee, payload := f.payload.bytes }

end Sys2Proof.Machine
end

