-- ==== Sys2Proof/WellFormed.lean ====
section
/-!
DEFINITION. Which terms of `Instr` stand for a command that can come about: the counts and lengths of R198, senders of R181,
the pages of R119, and bits that are a bad frame by R187.
-/

namespace Sys2Proof

/-- A sender of a valid frame is 0..14 (R181, R187). -/
abbrev Rx.WellFormed (rx : Rx) : Prop := rx.sender ≠ 15

/-- The pages that a page test may find BAD are data pages, none named twice (R119, R137). -/
abbrev RestartInputs.WellFormed (i : RestartInputs) : Prop :=
  i.failingPages.Nodup ∧ ∀ p ∈ i.failingPages, Machine.isDataPage p

/-- The label count has the limit 16 (R198). -/
abbrev SurveyOpenFrame.WellFormed (f : SurveyOpenFrame) : Prop := f.label.length ≤ 16

/-- The text length has the limit 40 (R198). -/
abbrev NoteFrame.WellFormed (f : NoteFrame) : Prop := f.text.length ≤ 40

/-- The text length has the limit 40, and an END block has no text (R198). -/
abbrev PrintBlockFrame.WellFormed (f : PrintBlockFrame) : Prop := f.text.length ≤ 40 ∧ (f.mark = 1 → f.text = [])

/-- The kinds that no block takes: the answers meant for the console, and the unknown kinds (R188, R197). -/
abbrev otherKind (k : BitVec 5) : Prop :=
  k ∉ ([0x01, 0x02, 0x03, 0x04, 0x05, 0x06, 0x10, 0x11, 0x14, 0x15, 0x16, 0x17, 0x18, 0x19, 0x1A, 0x1B] : List (BitVec 5))

/-- The well-formed commands. -/
def Instr.wellFormed : Instr → Bool
  | .powerOn i | .pinReset i | .releaseTimer i => decide i.WellFormed
  | .surveyOpen rx f => decide (rx.WellFormed ∧ f.WellFormed)
  | .surveyClose rx _ => decide rx.WellFormed
  | .recordRead rx _ _ => decide rx.WellFormed
  | .note rx f => decide (rx.WellFormed ∧ f.WellFormed)
  | .printRequest rx _ => decide rx.WellFormed
  | .queued rx _ => decide rx.WellFormed
  | .refused rx _ _ => decide rx.WellFormed
  | .go rx _ => decide rx.WellFormed
  | .taken rx _ _ => decide rx.WellFormed
  | .held rx _ _ => decide rx.WellFormed
  | .drop rx _ => decide rx.WellFormed
  | .printAsk rx _ => decide rx.WellFormed
  | .printBlock rx f => decide (rx.WellFormed ∧ f.WellFormed)
  | .badFrame bits => decide (Machine.receiveCommand bits = none)
  | .otherFrame rx k => decide (rx.WellFormed ∧ otherKind k)
  | .beacon rx _ => decide rx.WellFormed
  | .trigger rx _ => decide rx.WellFormed
  | .instant ⟨_, some f⟩ => decide f.1.WellFormed
  | .stationQuery rx => decide rx.WellFormed
  | .rosterExpiry n => decide (n ≠ 15)
  | .supplyLoss | .supplyWarn | .supplyWarnRelease | .surveyTimeLimit | .checkpointTimer | .instant ⟨_, none⟩ | .crossingTimeout
  | .holdoverExpiry | .peerSourceLapse | .captureComplete _ | .blockFull | .blockArithmeticDone | .pageWriteComplete _
  | .systemWriteComplete _ | .noteExpiry _ | .askAnswerTimer _ | .refreshTimer _ | .blockAnswerTimer _ | .holdTimer _
  | .holdingLimit _ | .goTimer | .inactivityTimer | .linePrinted | .paperOut | .paperIn | .ready _ | .lineIdle
  | .arbitrationLost | .bitError | .frameSent | .triggerStale | .stationConflict | .beaconTimer | .headerWriteComplete _ => true

end Sys2Proof
end

