-- ==== Sys2Proof/Machine/PrintCommands.lean ====
section
/-!
DEFINITION. The commands of the report engine and the printer service: requests, the frames of the exchange, their timers,
and the printer port (chapter 9).
-/

namespace Sys2Proof.Machine

/-- A timer that runs expires at its time, in a part that runs (R20; log 4). -/
def State.atTimer (s : State) (t : Option Nat) (f : State → State) : State :=
  match t with
  | some d => if s.isRunning then f (s.passTo d) else s
  | none => s

/-- A timer of the job in an entry, when the job is in the state in which that timer runs. -/
def State.jobTimer (s : State) (entry : Fin 2) (st : JobState) (timer : Job → Option Nat) (f : Job → State → State) : State :=
  match s.jobAt entry.val with
  | some j => if j.state = st then s.atTimer (timer j) (f j) else s
  | none => s

/-- PRINT_REQUEST (R155, R159). -/
def execPrintRequest (rx : Rx) (f : PrintRequestFrame) (s : State) : Host.Outcome State Fault Refusal :=
  .next (s.receive rx none fun s => (s.printRequest rx.sender.toNat f).run)

/-! ## Timers of the origin (R160 to R163) -/

/-- ASK_ANSWER_TIMER (R160): the ask is sent again, or after three sends the job is abandoned without a DROP. -/
def execAskAnswerTimer (entry : Fin 2) (s : State) : Host.Outcome State Fault Refusal :=
  .next (s.jobTimer entry .asked (·.answerTimer) fun j s =>
    if j.askSends < 3 then ({ s with line := s.line.withdraw (isAskOf j.number) }.askPrinter j).run else s.endJob j .abandoned)

/-- REFRESH_TIMER (R161): the ask of a QUEUED job is sent once more. -/
def execRefreshTimer (entry : Fin 2) (s : State) : Host.Outcome State Fault Refusal :=
  .next (s.jobTimer entry .queued (·.refreshTimer) fun j s =>
    ((s.setJob { j with refreshTimer := s.exchangeTimer j 10000 }).sendAsk j).run)

/-- BLOCK_ANSWER_TIMER (R162): the block is sent again, or after three sends the job is abandoned with a DROP. -/
def execBlockAnswerTimer (entry : Fin 2) (s : State) : Host.Outcome State Fault Refusal :=
  .next (s.jobTimer entry .sending (·.answerTimer) fun j s =>
    match j.current with
    | some b => if b.sends < 3 then (s.resendBlock j b (b.sends + 1)).run else (s.abandon j).run
    | none => s)

/-- HOLD_TIMER (R163): the held block is sent again, with send count 1. -/
def execHoldTimer (entry : Fin 2) (s : State) : Host.Outcome State Fault Refusal :=
  .next (s.jobTimer entry .sending (·.holdTimer) fun j s =>
    match j.current with
    | some b => (s.resendBlock j b 1).run
    | none => s)

/-- HOLDING_LIMIT (R163, R166): the holding time of a job with another station's printer reaches 600,000 ms. -/
def execHoldingLimit (entry : Fin 2) (s : State) : Host.Outcome State Fault Refusal :=
  .next (s.jobTimer entry .sending
    (fun j => if j.printer = .own then none else j.heldSince.map fun t => t + (ms 600000 - j.heldTicks))
    fun j s => (s.abandon j).run)

/-! ## Frames of the exchange taken by the report engine (R160 to R165) -/

/-- QUEUED (R160, R161, R165). -/
def execQueued (rx : Rx) (job : BitVec 8) (s : State) : Host.Outcome State Fault Refusal :=
  .next (s.receive rx none fun s => (s.originTake (.station rx.sender.toNat) (.queued job.toNat)).run)

/-- REFUSED (R160, R161, R165), whatever its reason byte (R198). -/
def execRefused (rx : Rx) (job reason : BitVec 8) (s : State) : Host.Outcome State Fault Refusal :=
  .next (s.receive rx none fun s => (s.originTake (.station rx.sender.toNat) (.refused job.toNat reason.toNat)).run)

/-- GO (R160 to R162, R165). -/
def execGo (rx : Rx) (job : BitVec 8) (s : State) : Host.Outcome State Fault Refusal :=
  .next (s.receive rx none fun s => (s.originTake (.station rx.sender.toNat) (.go job.toNat)).run)

/-- TAKEN (R162, R163, R165). -/
def execTaken (rx : Rx) (job : BitVec 8) (seq : BitVec 16) (s : State) : Host.Outcome State Fault Refusal :=
  .next (s.receive rx none fun s => (s.originTake (.station rx.sender.toNat) (.taken job.toNat seq.toNat)).run)

/-- HELD (R162, R163, R165). -/
def execHeld (rx : Rx) (job : BitVec 8) (seq : BitVec 16) (s : State) : Host.Outcome State Fault Refusal :=
  .next (s.receive rx none fun s => (s.originTake (.station rx.sender.toNat) (.held job.toNat seq.toNat)).run)

/-- DROP (R160 to R165, R177, R178): to the report engine and to the printer service, each for the job it holds (R188). -/
def execDrop (rx : Rx) (job : BitVec 8) (s : State) : Host.Outcome State Fault Refusal :=
  .next (s.receive rx none fun s =>
    ((s.originTake (.station rx.sender.toNat) (.drop job.toNat)).andThen fun s =>
      s.serviceTake (.station rx.sender.toNat) (.drop job.toNat)).run)

/-! ## The printer service (R173 to R178) -/

/-- PRINT_ASK (R174). -/
def execPrintAsk (rx : Rx) (f : PrintAskFrame) (s : State) : Host.Outcome State Fault Refusal :=
  .next (s.receive rx none fun s =>
    (s.serviceTake (.station rx.sender.toNat) (.printAsk f.job.toNat f.kind.toNat f.cls.toNat)).run)

/-- GO_TIMER (R175): GO is sent again before the job's first block has arrived. -/
def execGoTimer (s : State) : Host.Outcome State Fault Refusal :=
  .next (s.atTimer s.prn.goTimer fun s =>
    match s.prn.printing with
    | some e => ({ s with prn := { s.prn with goTimer := some (s.inMs 1000) } }.post e.origin false (.go e.job)).run
    | none => s)

/-- PRINT_BLOCK (R176, R178). A text length above its limit, or text in an END block, makes the frame bad (R198). -/
def execPrintBlock (rx : Rx) (f : PrintBlockFrame) (s : State) : Host.Outcome State Fault Refusal :=
  .next (if f.WellFormed then
      s.receive rx none fun s =>
        (s.serviceTake (.station rx.sender.toNat) (.printBlock f.job.toNat f.seq.toNat f.mark.toNat (keepText f.text))).run
    else s)

/-- INACTIVITY_TIMER (R177): the PRINTING job ends with the INCOMPLETE trailer and a DROP. -/
def execInactivityTimer (s : State) : Host.Outcome State Fault Refusal :=
  .next (s.atTimer s.prn.inactivity fun s =>
    match s.prn.printing with
    | some e => ((s.endPrinting e false).andThen fun s => s.post e.origin false (.drop e.job)).run
    | none => s)

/-! ## The printer port (R173) -/

/-- The bytes of a line on the printer port: its characters, a carriage return and a line feed (R173, R200). -/
def portBytes (line : List Byte) : List Byte := line ++ [0x0D, 0x0A]

/-- The head of the buffer has been sent on the port; what waits enters, and after the last line of a job or of a restart the
service becomes IDLE and chooses (R173, R176, R177). -/
def State.headPrinted (s : State) : Exchange :=
  Exchange.andThen (State.fillBuffer { s with prn := { s.prn with
    buffer := s.prn.buffer.tail, port := portBytes (s.prn.buffer.headD []) } }) fun s =>
    if s.prn.state = .finishing ∧ s.prn.buffer = [] ∧ s.prn.trailer = none then
      { s with prn := { s.prn with state := .idle } }.chooseJob
    else (s, [])

/-- LINE_PRINTED (R173): a line's line feed has been sent, which needs READY and paper. -/
def execLinePrinted (s : State) : Host.Outcome State Fault Refusal :=
  .next (if s.serviceWorks && s.pins.ready && !s.pins.paperOut then
      (s.fillBuffer.andThen fun s => if s.prn.buffer = [] then (s, []) else s.headPrinted).run
    else s)

/-- The own origin's pending block is answered HELD while the paper is out (R166; log 29). -/
def State.holdOwnPending (s : State) : Exchange :=
  match s.prn.printing, s.prn.waiting with
  | some e, some (k, _) =>
    if e.origin = .own ∧ s.serviceWorks then { s with prn := { s.prn with waiting := none } }.post .own false (.held e.job k)
    else (s, [])
  | _, _ => (s, [])

/-- PAPER_OUT (R173): the paper state becomes OUT. -/
def execPaperOut (s : State) : Host.Outcome State Fault Refusal :=
  .next ({ s with pins := { s.pins with paperOut := true } }.holdOwnPending).run

/-- PAPER_IN (R173, R175): the paper state becomes PRESENT, and a job may be chosen. -/
def execPaperIn (s : State) : Host.Outcome State Fault Refusal :=
  .next ({ s with pins := { s.pins with paperOut := false } }.chooseJob).run

/-- READY (R173): the input permits or withholds the sending of characters. -/
def execReady (level : Bool) (s : State) : Host.Outcome State Fault Refusal := .next { s with pins := { s.pins with ready := level } }

end Sys2Proof.Machine
end

