-- ==== Sys2Proof/Machine/LineCommands.lean ====
section
/-!
DEFINITION. The commands of the line interface: the transmit queue, bad and conflicting frames, the roster, beacons,
TRIGGER and STATION QUERY (chapter 10, R88 to R92, R18, R19, R37 to R39).
-/

namespace Sys2Proof.Machine

/-! ## The transmit queue (R182, R183, R185, R186, R88, R196) -/

/-- The fields of a beacon, as read when an attempt begins (R192). -/
def State.beaconFields (s : State) : BeaconInfo :=
  { number := s.hdr.number, state := s.hdr.state.code, flags := flagByte [s.provisional, s.straps.printer], time := s.clock.survey,
    tbState := s.tb.state.code, freq := s.tb.published, cause := s.lastCause.code }

/-- A frame starts an attempt; a beacon takes its fields (R185, R192). -/
def TxFrame.start (b : BeaconInfo) (f : TxFrame) : TxFrame :=
  { f with sending := true, payload := if f.payload.isBeacon then .beacon (some b) else f.payload }

/-- Where the frame stands that starts at an idle: the lowest priority number, the earliest queued (R185). -/
def nextToSend (q : List TxFrame) : Option Nat :=
  (sortBy (fun i => ((q[i]?).map fun f => f.payload.priority).getD 0) (List.range q.length)).head?

/-- LINE_IDLE (R185). -/
def execLineIdle (s : State) : Host.Outcome State Fault Refusal :=
  .next (if s.isRunning && !s.line.queue.any (·.sending) then
      match nextToSend s.line.queue with
      | some i => { s with line := { s.line with queue := s.line.queue.modify i (TxFrame.start s.beaconFields) } }
      | none => s
    else s)

/-- The frame under transmission (R185). -/
def Line.current (l : Line) : Option TxFrame := l.queue.find? (·.sending)

/-- The frame under transmission leaves the queue. -/
def Line.leave (l : Line) : Line := { l with queue := l.queue.eraseP (·.sending) }

/-- Changes the frame under transmission. -/
def Line.change (l : Line) (f : TxFrame → TxFrame) : Line :=
  { l with queue := l.queue.map fun x => if x.sending then f x else x }

/-- A frame leaves the queue unsent; a TRIGGER is counted as dropped stale (R196). -/
def Counters.unsent (c : Counters) (f : TxFrame) : Counters :=
  if f.payload.isTrigger then { c with triggersStale := satAdd c.triggersStale 1 } else c

/-- A frame whose attempt is over waits again. A beacon leaves the queue where a later one waits already: the queue holds at
most one beacon waiting (R186; log 47). -/
def Line.waitAgain (l : Line) (f : TxFrame) (g : TxFrame → TxFrame) : Line :=
  if f.payload.isBeacon && l.queue.any (fun x => x.payload.isBeacon && !x.sending) then l.leave else l.change g

/-- ARBITRATION_LOST (R182): the frame stays in the queue with its attempt count, a withdrawn copy too. A TRIGGER whose 40 ms
have run out is removed, since it is not under transmission any more (R88; log 27). -/
def execArbitrationLost (s : State) : Host.Outcome State Fault Refusal :=
  .next (match s.line.current with
    | some f =>
      if f.noRetry && f.payload.isTrigger then { s with line := s.line.leave, ctr := s.ctr.unsent f }
      else { s with line := s.line.waitAgain f fun f => { f with sending := false } }
    | none => s)

/-- A failed attempt is the frame's last: its eighth, or one of a frame not to be tried again, or of a TRIGGER at its 40 ms
(R183, R186, R88). -/
def TxFrame.spent (now : Nat) (f : TxFrame) : Bool :=
  8 ≤ f.attempts + 1 || f.noRetry || (f.payload.isTrigger && decide (f.queuedAt + ms 40 ≤ now))

/-- BIT_ERROR (R183): the attempt fails. The attempt count rises with the failure of an attempt, since no command marks the end of
the arbitration field, where the attempt begins to count: the model's choice, by which a queued frame shows its failed attempts,
0 to 7 (log 66). -/
def execBitError (s : State) : Host.Outcome State Fault Refusal :=
  .next (match s.line.current with
    | some f =>
      if f.spent s.clock.now then { s with line := s.line.leave, ctr := s.ctr.unsent f }
      else { s with line := s.line.waitAgain f fun f => { f with sending := false, attempts := f.attempts + 1 } }
    | none => s)

/-- FRAME_SENT (R185): the attempt reaches the end of its CRC, and the frame leaves the queue. -/
def execFrameSent (s : State) : Host.Outcome State Fault Refusal :=
  .next { s with line := s.line.leave }

/-- A TRIGGER whose 40 ms have run out: one under transmission is not tried again, any other is removed and counted
(R88). -/
def State.dropStale (s : State) (f : TxFrame) : State :=
  if f.sending then { s with line := s.line.change fun x => { x with noRetry := true } }
  else { s with line := { s.line with queue := s.line.queue.erase f }, ctr := s.ctr.unsent f }

/-- TRIGGER_STALE (R88): the earliest TRIGGER still queued 40 ms after its queuing. -/
def execTriggerStale (s : State) : Host.Outcome State Fault Refusal :=
  .next (match s.line.queue.find? fun f => f.payload.isTrigger && !f.noRetry with
    | some f => if s.isRunning then (s.passTo (f.queuedAt + ms 40)).dropStale f else s
    | none => s)

/-! ## Received frames that no block takes (R187 to R189) -/

/-- BAD_FRAME (R187): a bad frame changes no state of the station. -/
def execBadFrame (_bits : List Bool) (s : State) : Host.Outcome State Fault Refusal := .next s

/-- STATION_CONFLICT (R189): a valid frame with the own number that this station did not send makes it MUTED. -/
def execStationConflict (s : State) : Host.Outcome State Fault Refusal :=
  .next (if s.listening && s.ownNumber.isSome then s.conflict else s)

/-- OTHER_FRAME (R188): a valid frame of an unknown kind, or an answer meant for the console. -/
def execOtherFrame (rx : Rx) (_kind : BitVec 5) (s : State) : Host.Outcome State Fault Refusal :=
  .next (s.receive rx none fun s => s)

/-! ## Beacons and the roster (R191 to R194, R18, R19, R37 to R39) -/

/-- The fields of a received beacon as the roster keeps them (R193). Of the flags the whole byte is kept as received, the unnamed
bits 2 to 7 too, which nothing reads: the model's choice (R197; log 58). -/
def infoOf (f : BeaconFrame) : BeaconInfo :=
  { number := f.number.toNat, state := f.state.toNat, flags := f.flags.toNat, time := f.time.toNat, tbState := f.tbState.toNat,
    freq := f.freq.toNat, cause := f.cause.toNat }

/-- A beacon is taken: survey control examines it, and the timebase makes a choice in FREE and PEER (R188). -/
def State.takeBeacon (s : State) (b : BeaconInfo) : State :=
  let s := s.rejoin b
  if s.inSurvey && (s.tb.state == .free || s.tb.state == .peer) then s.choosePeer else s

/-- BEACON (R193). -/
def execBeacon (rx : Rx) (f : BeaconFrame) (s : State) : Host.Outcome State Fault Refusal :=
  .next (s.receive rx (some (infoOf f)) fun s => s.takeBeacon (infoOf f))

/-- BEACON_TIMER (R191): a beacon is handed to the transmit queue, and the next expiry comes 1000 ms after this one. -/
def execBeaconTimer (s : State) : Host.Outcome State Fault Refusal :=
  .next (match s.line.beaconTimer with
    | some t =>
      if s.isRunning then
        let s := s.passTo t
        { s with line := { s.line with beaconTimer := some (t + ms 1000) } }.send (.beacon none) 15
      else s
    | none => s)

/-- A roster entry becomes empty, and the blocks that watch it act (R194). -/
def State.loseStation (s : State) (n : Nat) : State :=
  let s := { s with line := { s.line with roster := s.line.roster.filter fun e => e.station != n } }
  let s := { s.loseQueued n with prn := s.prn.loseOrigin n }
  if s.inSurvey && s.tb.state == .peer && s.tb.source == some n then s.choosePeer else s

/-- ROSTER_EXPIRY (R194): 3000 ms after the last frame of a station. -/
def execRosterExpiry (station : BitVec 4) (s : State) : Host.Outcome State Fault Refusal :=
  .next (match s.line.entryOf station.toNat with
    | some e => if s.isRunning then (s.passTo (e.lastFrame + ms 3000)).loseStation station.toNat else s
    | none => s)

/-! ## TRIGGER and STATION QUERY (R89 to R92, R195) -/

/-- TRIGGER (R89). -/
def execTrigger (rx : Rx) (f : TriggerFrame) (s : State) : Host.Outcome State Fault Refusal :=
  .next (s.hearTrigger rx f)

/-- The STATION REPORT (R195). -/
def State.stationReport (s : State) : Payload :=
  .stationReport s.hdr.state.code s.hdr.number s.clock.survey (flagByte [s.provisional]) s.tb.state.code s.tb.published s.ctr.list

/-- STATION_QUERY (R195). -/
def execStationQuery (rx : Rx) (s : State) : Host.Outcome State Fault Refusal :=
  .next (s.receive rx none fun s => s.send s.stationReport rx.sender.toNat)

end Sys2Proof.Machine
end

