-- ==== Sys2Proof/Machine/MeasureCommands.lean ====
section
/-!
DEFINITION. The commands of the measuring blocks: the instant with all that comes about inside it, and the events of the
timebase, the capture unit and the harmonic analyser (chapters 2 to 6).
-/

namespace Sys2Proof.Machine

/-- An evaluated boundary: the report goes to the event unit, the analyser marks its block, and the timebase makes its
reference test (R54, R55, R109, R27). `st` is the timebase state of the boundary's instant. -/
def State.takeBoundary (s : State) (st : TbState) : State :=
  let r := s.lev.report s.hdr.params s.clock.survey
  let s := { s with lev := s.lev.evaluate r }
  let s := (s.takeReport r st).markEvent
  let m := s.tb.reference (s.lev.volts.map (·.st))
  { s with tb := m.1, har := s.har.hear m.2 }

/-- One instant is taken at its strobe and handed to the ring and the captures, the level monitor and the analyser; then
the crossing watch, the boundary, and the settlement that may follow (R25 to R29, R43, R44, R76, R83, R104; log 19). A TRIGGER
that comes with it is heard once the captures have taken the instant and before the boundary's report is taken, so no instant
comes between its companion and an event that opens here, and the conversion has offset 0 (R86, R93; log 69). -/
def State.takeInstant (s : State) (i : InstantInputs) : State :=
  let t := s.tb.nextStrobe
  let st := s.tb.state
  let raw := s.fitted i.samples
  let xs := raw.map BitVec.toInt
  let s := { s.passTo t with tb := s.tb.strobe }
  let s := s.captureInstant raw
  let s := { s with lev := s.lev.take xs }
  let index := s.tb.index.getD 0
  let s := s.analyse xs index st
  let w := s.tb.watch s.hdr.params.hz s.hdr.params.un t xs
  let s := { s with tb := w.1, har := s.har.hear w.2 }
  if boundaryDue index s.lev.count then ((s.hearBetween i.between).takeBoundary st).trySettle
  else s.trySettle.hearBetween i.between

/-- INSTANT (R25): in RECORDING and REJOINING a strobe takes one instant of every fitted channel. Once a close has begun none is
taken, also while it waits for the closing writes of its captures (R42; log 63). A TRIGGER that comes with it is received in any
case. -/
def execInstant (i : InstantInputs) (s : State) : Host.Outcome State Fault Refusal :=
  .next (if s.measuring && s.tb.state != .stopped then s.takeInstant i else s.hearBetween i.between)

/-- CROSSING_TIMEOUT (R34): in LOCKED, floor(3 × P / 2) ticks pass after the last crossing; the cycle is left unjudged
(R33, R108). -/
def execCrossingTimeout (s : State) : Host.Outcome State Fault Refusal :=
  .next (match s.tb.lastCrossing with
    | some t =>
      if s.inSurvey && s.tb.state == .locked then
        let s := s.passTo (t + 3 * s.tb.period / 2)
        { s with tb := s.tb.holdover, har := s.har.hear .unjudged }.trySettle
      else s
    | none => s)

/-- HOLDOVER_EXPIRY (R36): the held-period count has reached 2048, and the roster is consulted. -/
def execHoldoverExpiry (s : State) : Host.Outcome State Fault Refusal :=
  .next (if s.inSurvey && s.tb.state == .holdover && decide (2048 ≤ s.tb.held) then s.choosePeer else s)

/-- PEER_SOURCE_LAPSE (R37, R38): in PEER, 2000 ms have passed since the source's last beacon. -/
def execPeerSourceLapse (s : State) : Host.Outcome State Fault Refusal :=
  .next (if s.inSurvey && s.tb.state == .peer then
      match (s.tb.source.bind s.line.entryOf).bind (·.lastBeacon) with
      | some t => (s.passTo (t + ms 2000)).choosePeer
      | none => s.choosePeer
    else s)

/-- CAPTURE_COMPLETE (R94): the capture of a slot has taken its 2048th post instant and is sealed COMPLETE. -/
def execCaptureComplete (slot : Fin 3) (s : State) : Host.Outcome State Fault Refusal :=
  .next (match s.cap.slots.find? fun sl => sl.num == slot.val + 1 && !sl.closing && decide (postInstants ≤ sl.post) with
    | some sl => if s.measuring then s.sealSlot sl .complete else s
    | none => s)

/-- BLOCK_FULL (R101): the current block has taken its N-th instant and becomes the settling block. -/
def execBlockFull (s : State) : Host.Outcome State Fault Refusal := .next (if s.inSurvey then s.fillBlock else s)

/-- BLOCK_ARITHMETIC_DONE (R104 to R107): the arithmetic of the settling block is complete, and the block is settled when
its verdict is in hand (R102). -/
def execBlockArithmeticDone (s : State) : Host.Outcome State Fault Refusal :=
  .next (match s.har.settling with
    | some b =>
      if s.inSurvey && b.results.isNone then
        { s with har := { s.har with settling := some (b.compute s.hdr.params) } }.trySettle
      else s
    | none => s)

end Sys2Proof.Machine
end

