-- ==== Sys2Proof/Machine/StoreCommands.lean ====
section
/-!
DEFINITION. The commands of the record store and the notes table: the completions of its writes, RECORD READ, NOTE and note
expiry (chapters 7 and 8, R12).
-/

namespace Sys2Proof.Machine

/-! ## Producers are told (R95, R96, R134) -/

/-- The producer of a WAVEFORM record is told: its slot becomes FREE (R95, R96). -/
def Capture.freeRecord (c : Capture) (r : Nat) : Capture := { c with slots := c.slots.filter fun sl => sl.record != r }

/-- The producer of a record that the store failed is told (R134, R71, R96, R115, R150). -/
def State.recordFailed (s : State) (e : Entry) : State :=
  match e.img.tag with
  | .sag => { s with ctr := { s.ctr with summariesLost := satAdd s.ctr.summariesLost 1 } }
  | .waveform => { s with cap := s.cap.freeRecord e.img.record }
  | .interval => { s with ctr := { s.ctr with intervalsLost := satAdd s.ctr.intervalsLost 1 } }
  | .note => { s with notes := s.notes.map fun n => if n.record == some e.img.record then { n with record := none } else n }

/-- The page of a failed write is retired, with the counters following; the producer of a record that fails for want of a
replacement is told here, and that of a second failure was told at the mismatch (R133 steps 2 to 4, R134, R142). An acceptance or
parking that waited goes on unless a repeat follows (log 26). -/
def State.settleRetiring (s : State) : State :=
  match s.store.retiring with
  | some x =>
    if x.listed then s
    else
      let out := s.store.settleRetiring x
      let s := { s with store := out.1, ctr := { s.ctr with badPages := satAdd s.ctr.badPages 1 }.reclaimed out.2.2 }
      let s := match out.2.1 with
        | some e => if x.second then s else s.recordFailed e
        | none => s
      if s.store.retiring.isSome then s else s.afterPage
  | none => s

/-! ## System writes (R120) -/

/-- A system write has ended: an entry's shortened page list releases the other pages (R136), and a copy of the BAD list
retires the page that waits for it, copy B also when neither copy could be verified (R133 step 1). -/
def State.sysEnded (s : State) (item : SysItem) (verified : Bool) : State :=
  match item with
  | .entry i r => { s with store := s.store.released i r }
  | .bad second => if verified || second then s.settleRetiring else s
  | .ctl _ => s

/-- The first system write finishes: verified, tried once more, or given up (R120). -/
def State.sysDone (s : State) (ok : Bool) : State :=
  match s.store.reach StoreWrite.isSys with
  | some (.sys item retried, st) =>
    if ok then { s with store := { st with nv := st.written item } }.sysEnded item true
    else if retried then { s with store := st.tearSys item }.sysEnded item false
    else { s with store := { st with writes := .sys item true :: st.writes } }
  | _ => s

/-- The system writes that stand before the first write that `which` names have ended before it, verified; at most `fuel` of
them (log 10). -/
def State.drain (which : StoreWrite → Bool) : Nat → State → State
  | 0, s => s
  | fuel + 1, s => if s.store.awaits which then State.drain which fuel (s.sysDone true) else s

/-- The system writes before the first write that `which` names have ended: they are no more than waited and than the
reclamation of a replacement page adds. -/
def State.reach (s : State) (which : StoreWrite → Bool) : State :=
  s.drain which (s.store.writes.length + s.store.dir.length + 4)

/-! ## The end of a page write (R132 to R135) -/

/-- A page write matched (R132, R135): the slot of a capture whose final header write it was becomes FREE (R95). -/
def State.pageVerified (s : State) (r pos : Nat) (bs : List Byte) (next : PageNext) : State :=
  { s with store := s.store.pageMatch r pos bs next, cap := if next = .seal then s.cap.freeRecord r else s.cap }

/-- A page write mismatched (R133). At the record's second failure its producer is told at once: the slot of a capture becomes
FREE (R96, R134; log 20). -/
def State.pageFailed (s : State) (e : Entry) (pos p : Nat) (bs : List Byte) (next : PageNext) : State :=
  let s := { s with store := s.store.mismatch e pos p bs next }
  if e.fails = 0 then s else s.recordFailed e

/-- A page write finishes. A write to a record that is not FILLING is no write of its producer (R123), and leaves the record
as it is (log 48). -/
def State.pageEnded (s : State) (r pos : Nat) (bs : List Byte) (next : PageNext) (ok : Bool) : State :=
  match s.store.entryOf r with
  | some e =>
    if e.img.sealed then s.afterPage
    else if ok then (s.pageVerified r pos bs next).afterPage
    else match e.img.pages[pos]? with
      | some p => s.pageFailed e pos p bs next
      | none => s.afterPage
  | none => s.afterPage

/-- The first page write waiting finishes. A page that is still to be retired is retired before it (log 10). -/
def State.pageDone (s : State) (ok : Bool) : State :=
  if s.store.writes.any StoreWrite.isPage then
    let s := (s.reach StoreWrite.isPage).settleRetiring
    match s.store.reach StoreWrite.isPage with
    | some (.page r pos bs next, st) => { s with store := st }.pageEnded r pos bs next ok
    | _ => s
  else s

/-- The first header write waiting finishes. -/
def State.headerDone (s : State) (ok : Bool) : State :=
  let s := s.reach StoreWrite.isHeader
  { s with store := s.store.headerDone ok }

/-- PAGE_WRITE_COMPLETE (R132): a page write and its read-back finish, matching or not. -/
def execPageWriteComplete (ok : Bool) (s : State) : Host.Outcome State Fault Refusal :=
  .next (if s.mode = .off then s else (s.pageDone ok).afterWrite)

/-- SYSTEM_WRITE_COMPLETE (R120): a write of the system region finishes. -/
def execSystemWriteComplete (ok : Bool) (s : State) : Host.Outcome State Fault Refusal :=
  .next (if s.mode = .off then s else (s.sysDone ok).afterWrite)

/-- HEADER_WRITE_COMPLETE (R12): a write of page 0 finishes. -/
def execHeaderWriteComplete (ok : Bool) (s : State) : Host.Outcome State Fault Refusal :=
  .next (if s.mode = .off then s else (s.headerDone ok).afterWrite)

/-! ## RECORD READ (R140) -/

/-- The status and the bytes that answer a read of a chunk (R140, R197). Positions that are to be released are no part of the
record (R136). -/
def Store.readChunk (st : Store) (r chunk : Nat) : Nat × List Byte :=
  match st.entryOf r with
  | none => (2, [])
  | some e =>
    if !e.img.sealed then (1, [])
    else if 40 * chunk < e.written.length then (0, st.bytes e.written (40 * chunk) (min 40 (e.written.length - 40 * chunk)))
    else (3, [])

/-- RECORD_READ (R140). -/
def execRecordRead (rx : Rx) (record : BitVec 32) (chunk : BitVec 16) (s : State) : Host.Outcome State Fault Refusal :=
  .next (s.receive rx none fun s =>
    let a := s.store.readChunk record.toNat chunk.toNat
    s.send (.recordData record.toNat chunk.toNat a.1 a.2) rx.sender.toNat)

/-! ## Notes (R144, R151) -/

/-- The note that a NOTE frame carries, at its taking (R144, R200). -/
def State.noteFrom (s : State) (f : NoteFrame) : Note :=
  { id := f.id.toNat, kind := f.kind.toNat, span := clamp 0 240 f.span.toNat, corrects := f.corrects.toNat,
    received := s.clock.survey, text := keepText f.text }

/-- A NOTE frame is taken, ignored, or is a repeat (R144, R145). -/
def State.noteFrame (s : State) (addressee : Nat) (f : NoteFrame) : State :=
  if s.hdr.state = .idle ∨ f.id = 0 ∨ ¬(1 ≤ f.kind.toNat ∧ f.kind.toNat ≤ 3) ∨ s.knownNote f.id.toNat then s
  else s.takeNote (s.noteFrom f) addressee

/-- NOTE (R144). A text length above its limit makes the frame bad (R198). -/
def execNote (rx : Rx) (f : NoteFrame) (s : State) : Host.Outcome State Fault Refusal :=
  .next (if f.WellFormed then s.receive rx none fun s => s.noteFrame rx.addressee.toNat f else s)

/-- NOTE_EXPIRY (R151): survey time reaches the span end of an ACTIVE OBSERVATION entry. -/
def execNoteExpiry (id : BitVec 16) (s : State) : Host.Outcome State Fault Refusal :=
  .next (match (s.notes.find? fun e => e.id == id.toNat && !e.site && !e.expired).bind (·.spanEnd) with
    | some t =>
      if s.surveyRuns then
        let s := s.passToSurvey t
        { s with notes := s.notes.map (NoteEntry.expireAt s.clock.survey) }
      else s
    | none => s)

end Sys2Proof.Machine
end

