-- ==== Sys2Proof/Machine/SupplyCommands.lean ====
section
/-!
DEFINITION. The commands of the supply, RESET and SUPPLY WARN inputs (R15, R20, R21).
-/

namespace Sys2Proof.Machine

/-- POWER_ON (R15): the supply returns after a loss, and a POWER-ON restart runs (R16). -/
def execPowerOn (i : RestartInputs) (s : State) : Host.Outcome State Fault Refusal := .next (s.restart .powerOn i)

/-- SUPPLY_LOSS (R15): whatever the part is doing is abandoned until the supply returns. -/
def execSupplyLoss (s : State) : Host.Outcome State Fault Refusal := .next { s.cutOff with mode := .off }

/-- PIN_RESET (R15): a PIN RESET restart in any state of a part that has supply. -/
def execPinReset (i : RestartInputs) (s : State) : Host.Outcome State Fault Refusal :=
  .next (if s.mode = .off then s else s.restart .pinReset i)

/-- SUPPLY_WARN (R20, R21): a running part enters PARKED; in PARKED and during parking a running release timer is
cancelled. -/
def execSupplyWarn (s : State) : Host.Outcome State Fault Refusal :=
  let s := { s with pins := { s.pins with supplyWarn := true }, sup := { s.sup with releaseTimer := none } }
  .next (if s.isRunning then s.park else s)

/-- SUPPLY_WARN_RELEASE (R21): in PARKED and during parking, the 100 ms release timer starts. -/
def execSupplyWarnRelease (s : State) : Host.Outcome State Fault Refusal :=
  let parking := s.mode == .parked || (s.isRunning && s.sup.parkDue)
  .next { s with
    pins := { s.pins with supplyWarn := false }
    sup := if parking && s.pins.supplyWarn then { s.sup with releaseTimer := some (s.inMs 100) } else s.sup }

/-- RELEASE_TIMER (R21): a SUPPLY DIP restart, at once when parking has reached stage 7, and otherwise as soon as it
does. -/
def execReleaseTimer (i : RestartInputs) (s : State) : Host.Outcome State Fault Refusal :=
  .next (match s.sup.releaseTimer with
    | none => s
    | some t =>
      let s := s.passTo t
      let s := { s with sup := { s.sup with releaseTimer := none } }
      if s.parkingDone then s.restart .supplyDip i else { s with sup := { s.sup with restartDue := some i } })

end Sys2Proof.Machine
end

