-- ==== Sys2Proof/Machine/SurveyCommands.lean ====
section
/-!
DEFINITION. The commands of survey control: opening, closing, the time limit and the checkpoint (R4 to R8, R12).
-/

namespace Sys2Proof.Machine

/-- SURVEY_OPEN (R4, R5). A label count above its limit makes the frame bad (R198). -/
def execSurveyOpen (rx : Rx) (f : SurveyOpenFrame) (s : State) : Host.Outcome State Fault Refusal :=
  .next (if f.WellFormed then s.receive rx none fun s => s.surveyOpen rx.sender.toNat f else s)

/-- SURVEY_CLOSE (R7). -/
def execSurveyClose (rx : Rx) (number : BitVec 16) (s : State) : Host.Outcome State Fault Refusal :=
  .next (s.receive rx none fun s => s.surveyClose rx.sender.toNat number.toNat)

/-- SURVEY_TIME_LIMIT (R8): survey time reaches 4,000,000,000 ms in RECORDING or REJOINING. A close under way goes on. -/
def execSurveyTimeLimit (s : State) : Host.Outcome State Fault Refusal :=
  .next (if s.inSurvey then (s.passToSurvey Config.surveyLimit).limitTest else s)

/-- CHECKPOINT_TIMER (R12): the checkpoint timer expires in RECORDING or REJOINING, also while a close waits for the closing
writes of its captures (log 63), and the header is written. -/
def execCheckpointTimer (s : State) : Host.Outcome State Fault Refusal :=
  .next (match s.ckpt with
    | some t => if s.inSurvey then (s.passTo t).writeHeader else s
    | none => s)

end Sys2Proof.Machine
end

