-- ==== Sys2Proof/Machine/Dispatch.lean ====
section
/-!
DEFINITION. One arm per command: a direct call of its meaning.
-/

namespace Sys2Proof.Machine

/-- The effect of a command on everything but the queue of waiting commands. -/
def exec (i : Instr) (s : State) : Host.Outcome State Fault Refusal :=
  match i with
  | .powerOn pins => Sys2Proof.Machine.execPowerOn pins s
  | .supplyLoss => Sys2Proof.Machine.execSupplyLoss s
  | .pinReset pins => Sys2Proof.Machine.execPinReset pins s
  | .supplyWarn => Sys2Proof.Machine.execSupplyWarn s
  | .supplyWarnRelease => Sys2Proof.Machine.execSupplyWarnRelease s
  | .releaseTimer pins => Sys2Proof.Machine.execReleaseTimer pins s
  | .surveyOpen rx f => Sys2Proof.Machine.execSurveyOpen rx f s
  | .surveyClose rx n => Sys2Proof.Machine.execSurveyClose rx n s
  | .surveyTimeLimit => Sys2Proof.Machine.execSurveyTimeLimit s
  | .checkpointTimer => Sys2Proof.Machine.execCheckpointTimer s
  | .instant x => Sys2Proof.Machine.execInstant x s
  | .crossingTimeout => Sys2Proof.Machine.execCrossingTimeout s
  | .holdoverExpiry => Sys2Proof.Machine.execHoldoverExpiry s
  | .peerSourceLapse => Sys2Proof.Machine.execPeerSourceLapse s
  | .captureComplete k => Sys2Proof.Machine.execCaptureComplete k s
  | .blockFull => Sys2Proof.Machine.execBlockFull s
  | .blockArithmeticDone => Sys2Proof.Machine.execBlockArithmeticDone s
  | .pageWriteComplete ok => Sys2Proof.Machine.execPageWriteComplete ok s
  | .systemWriteComplete ok => Sys2Proof.Machine.execSystemWriteComplete ok s
  | .recordRead rx r c => Sys2Proof.Machine.execRecordRead rx r c s
  | .note rx f => Sys2Proof.Machine.execNote rx f s
  | .noteExpiry n => Sys2Proof.Machine.execNoteExpiry n s
  | .printRequest rx f => Sys2Proof.Machine.execPrintRequest rx f s
  | .askAnswerTimer e => Sys2Proof.Machine.execAskAnswerTimer e s
  | .refreshTimer e => Sys2Proof.Machine.execRefreshTimer e s
  | .blockAnswerTimer e => Sys2Proof.Machine.execBlockAnswerTimer e s
  | .holdTimer e => Sys2Proof.Machine.execHoldTimer e s
  | .holdingLimit e => Sys2Proof.Machine.execHoldingLimit e s
  | .queued rx j => Sys2Proof.Machine.execQueued rx j s
  | .refused rx j r => Sys2Proof.Machine.execRefused rx j r s
  | .go rx j => Sys2Proof.Machine.execGo rx j s
  | .taken rx j k => Sys2Proof.Machine.execTaken rx j k s
  | .held rx j k => Sys2Proof.Machine.execHeld rx j k s
  | .drop rx j => Sys2Proof.Machine.execDrop rx j s
  | .printAsk rx f => Sys2Proof.Machine.execPrintAsk rx f s
  | .goTimer => Sys2Proof.Machine.execGoTimer s
  | .printBlock rx f => Sys2Proof.Machine.execPrintBlock rx f s
  | .inactivityTimer => Sys2Proof.Machine.execInactivityTimer s
  | .linePrinted => Sys2Proof.Machine.execLinePrinted s
  | .paperOut => Sys2Proof.Machine.execPaperOut s
  | .paperIn => Sys2Proof.Machine.execPaperIn s
  | .ready l => Sys2Proof.Machine.execReady l s
  | .lineIdle => Sys2Proof.Machine.execLineIdle s
  | .arbitrationLost => Sys2Proof.Machine.execArbitrationLost s
  | .bitError => Sys2Proof.Machine.execBitError s
  | .frameSent => Sys2Proof.Machine.execFrameSent s
  | .triggerStale => Sys2Proof.Machine.execTriggerStale s
  | .badFrame b => Sys2Proof.Machine.execBadFrame b s
  | .stationConflict => Sys2Proof.Machine.execStationConflict s
  | .otherFrame rx k => Sys2Proof.Machine.execOtherFrame rx k s
  | .beacon rx f => Sys2Proof.Machine.execBeacon rx f s
  | .trigger rx f => Sys2Proof.Machine.execTrigger rx f s
  | .stationQuery rx => Sys2Proof.Machine.execStationQuery rx s
  | .beaconTimer => Sys2Proof.Machine.execBeaconTimer s
  | .rosterExpiry n => Sys2Proof.Machine.execRosterExpiry n s
  | .headerWriteComplete ok => Sys2Proof.Machine.execHeaderWriteComplete ok s

end Sys2Proof.Machine
end

