-- ==== Sys2Proof/Safety.lean ====
section
/-!
DEFINITION. What holds of every sound state of the part, block by block, and the terms in which claims speak of frames and
restarts.
-/

namespace Sys2Proof.Machine

/-! ## Sound states -/

/-- The data pages are in canonical form. -/
def State.memoryOk (s : State) : Prop := Memory.wf s.store.nv.mem

/-- The page map and the directory (R121, R122): at most 1024 entries, each of its own number; the page list of every live
entry, and of every entry written in the system region, names data pages without a repeat; no page is owned by two live entries;
and an owned page stands on the working BAD list only while its failed write is being settled (R133). -/
def State.directoryOk (s : State) : Prop :=
  (s.store.dir.map (·.index)).Nodup ∧ (∀ e ∈ s.store.dir, e.index < 1024) ∧ s.store.used.Nodup ∧
    (∀ p ∈ s.store.used, isDataPage p) ∧
    (∀ x ∈ s.store.nv.sys, ∀ d, x.2.content = .entry d → d.pages.Nodup ∧ ∀ p ∈ d.pages, isDataPage p) ∧
    ∀ e ∈ s.store.dir, ∀ p ∈ e.img.pages, p ∈ s.store.bad →
      ∃ x, s.store.retiring = some x ∧ x.listed = false ∧ x.page = p ∧ x.entry = e.index

/-- The law of pins (R131): the two jobs stand in entries of their own, every listed record is live and SEALED, and a record's
pin count is how often the lists of the jobs hold it; no live record number passes the last one issued (R124), and no job stands
while an acceptance is under way (R4 stage 1). -/
def State.pinsOk (s : State) : Prop :=
  (s.sup.opening ≠ none → s.rep.jobs = []) ∧ (s.store.dir.map (·.index)).Nodup ∧ (s.rep.jobs.map (·.entry)).Nodup ∧
    (∀ e ∈ s.store.dir, e.img.record ≤ s.store.last) ∧
    (∀ j ∈ s.rep.jobs, ∀ r ∈ j.records, ∃ e ∈ s.store.dir, e.img.record = r ∧ e.img.sealed = true) ∧
    ∀ e ∈ s.store.dir, e.pins = (s.rep.jobs.map fun j => j.records.count e.img.record).sum

/-- The capture slots (R78): at most three, numbered 1 to 3, of level 3 at most, and of level 0 for a companion. -/
def slotsOk (l : List Slot) : Prop :=
  (l.map (·.num)).Nodup ∧ ∀ sl ∈ l, 1 ≤ sl.num ∧ sl.num ≤ 3 ∧ sl.level ≤ 3 ∧ (sl.kind = .companion → sl.level = 0)

/-- The transmit queue holds at most 8 frames (R185), and none while the station is MUTED (R190); at most one frame is under
transmission (R185), and at most one beacon waits (R186). -/
def State.lineOk (s : State) : Prop :=
  s.line.queue.length ≤ 8 ∧ (s.line.muted = true → s.line.queue = []) ∧ (s.line.queue.filter (·.sending)).length ≤ 1 ∧
    (s.line.queue.filter fun f => f.payload.isBeacon && !f.sending).length ≤ 1

/-- The print queue holds at most 8 entries and the buffer at most 2 lines; an entry is PRINTING and a block pending only in
PRINTING, at most one job is PRINTING, and nothing waits to be printed in IDLE (R173, R177). -/
def Printer.ok (p : Printer) : Prop :=
  p.queue.length ≤ 8 ∧ p.buffer.length ≤ 2 ∧
    (p.state ≠ .printing → (∀ e ∈ p.queue, e.printing = false) ∧ p.waiting = none) ∧
    (p.state = .idle → p.buffer = [] ∧ p.trailer = none) ∧
    ∀ e ∈ p.queue, ∀ e' ∈ p.queue, e.printing = true → e'.printing = true → e.origin = e'.origin ∧ e.job = e'.job

/-- The notes table holds at most 32 entries, at most 4 of them SITE (R143, R146). -/
def notesOk (t : List NoteEntry) : Prop := t.length ≤ 32 ∧ (t.filter (·.site)).length ≤ 4

/-- No station counter passes 65535 (R22). -/
def Counters.ok (c : Counters) : Prop := ∀ n ∈ c.list, n ≤ 65535

/-- The tables and rings of bounded size: two origin jobs (R156), 512 ring instants (R76), 8 crossing intervals (R23), 8 restart
log entries (R14). -/
def State.bounded (s : State) : Prop :=
  s.rep.jobs.length ≤ 2 ∧ s.cap.ring.length ≤ 512 ∧ s.tb.history.length ≤ 8 ∧ s.hdr.log.length ≤ 8

/-! ## Frames -/

/-- A frame that the line interface hands to a block: received, not of this station, and addressed here (R187, R188). -/
def State.takes (s : State) (rx : Rx) : Prop :=
  s.mode = .running ∧ s.sup.opening = none ∧ rx.sender ≠ 15 ∧ s.ownNumber ≠ some rx.sender.toNat ∧
    (rx.addressee = 15 ∨ s.ownNumber = some rx.addressee.toNat)

/-- The state whose roster shows the frame (R193). -/
def State.heard (s : State) (rx : Rx) : State := { s with line := s.line.refresh rx.sender.toNat s.clock.now none }

/-- The state whose roster shows the beacon (R193). -/
def State.heardBeacon (s : State) (rx : Rx) (b : BeaconInfo) : State :=
  { s with line := s.line.refresh rx.sender.toNat s.clock.now (some b) }

/-! ## Restarts -/

/-- The header a restart goes on from: the one page 0 holds, or a fresh one (R16 stage 3). -/
def State.foundHeader (s : State) : Header := s.store.cut.nv.header.getD freshHeader

/-- The store after the stages 3 and 5 of a restart (R16, R137 to R139). -/
def State.foundStore (s : State) (i : RestartInputs) : Store := (s.store.cut.atRestart i.failingPages).2.1.losePower

/-- The live entry `i`, holding `d`, loses page `p` at a restart: the page is on the BAD list read, or another entry names it
that has the higher record number, or an equal one and the lower entry number (R137; logs 46, 57). -/
def Region.loses (nv : Region) (i : Nat) (d : DirImage) (p : Nat) : Prop :=
  (∃ c, nv.readBad = some c ∧ p ∈ c.pages) ∨
    ∃ i' d', i' < 1024 ∧ nv.entry i' = some d' ∧ p ∈ d'.pages ∧ (d.record < d'.record ∨ (d.record = d'.record ∧ i' < i))

/-- The restart reading of a store (R137): the BAD list of the newer valid copy, or with none the pages that the page test found
among those no entry names once the claims to pages have been resolved (log 64); the last record number, raised to the highest live one; of every live entry the positions before the
first page it loses, an entry that lost pages being written. -/
def Store.readsAsFound (st : Store) (failing : List Nat) : Prop :=
  let nv := st.nv
  let out := (st.readRegion failing).1
  (∀ c, nv.readBad = some c → out.bad = c.pages ∧ out.nv = nv) ∧
  (nv.readBad = none → out.nv.sys = nv.sys ∧
    (∀ p, p ∈ out.bad ↔ isDataPage p ∧ p ∈ failing ∧ ∀ e ∈ out.dir, p ∉ e.img.pages) ∧
    ∀ a, isDataPage (a / 1024) → a / 1024 ∉ failing → (∀ e ∈ out.dir, a / 1024 ∉ e.img.pages) → out.nv.mem.read a = 0) ∧
  (∀ i d, i < 1024 → nv.entry i = some d → d.record ≤ out.last) ∧
  ((nv.readCtl.map (·.last)).getD 0 ≤ out.last) ∧
  (out.last = (nv.readCtl.map (·.last)).getD 0 ∨ ∃ i d, i < 1024 ∧ nv.entry i = some d ∧ d.record = out.last) ∧
  (∀ e ∈ out.dir, e.index < 1024 ∧ (nv.entry e.index).isSome = true) ∧
  ∀ (i k : Nat) (d : DirImage), i < 1024 → nv.entry i = some d → (∀ p ∈ d.pages.take k, ¬nv.loses i d p) → k ≤ d.pages.length →
    (∀ p, d.pages[k]? = some p → nv.loses i d p) →
    (k = 0 → ∀ e ∈ out.dir, e.index ≠ i) ∧
    (0 < k → ⟨i, { d with pages := d.pages.take k, verified := min d.verified k }, 0, 0, none, none, []⟩ ∈ out.dir) ∧
    (k < d.pages.length → StoreWrite.sys (.entry i (if k = 0 then none else some d.record)) false ∈ out.writes)

/-- The sequence numbers that the records of a store name for station `own` (R16 stage 7). -/
def Store.names (st : Store) (own n : Nat) : Prop :=
  ∃ e ∈ st.dir, (e.img.tag = .waveform ∧ st.field e.img 2 1 = own ∧ st.field e.img 4 2 = n) ∨
    (e.img.tag = .sag ∧ e.img.outcome ≠ .lostPower ∧ st.field e.img 1 1 = own ∧ st.field e.img 2 2 = n)

/-- What a restart of a cause leaves, whatever was before it: the blocks of R17, with the sequence counter, the notes table and
the interval counter read from the store as found, and the header write of stage 8 handed over (R16, R100, R153). -/
def State.restartedFrom (t s : State) (c : Cause) (i : RestartInputs) : Prop :=
  t.mode = .running ∧ t.straps = i.straps ∧ t.pins = s.pins ∧ t.lastCause = c ∧ t.hdr = s.foundHeader.restarted c ∧
    t.clock = { s.clock with survey := s.foundHeader.checkpoint, phase := 0 } ∧
    t.tb.state = (if t.hdr.state = .rejoining then .free else .stopped) ∧ t.tb.ref = 0 ∧ t.lev = freshLevel t.channels ∧
    t.ev = { event := none, seq := (s.foundStore i).restoredSeq t.stationNo } ∧
    t.notes = (s.foundStore i).rebuildNotes s.foundHeader.checkpoint ∧ t.cap = { ring := [], slots := [] } ∧
    t.har = freshHarmonic (if t.hdr.state = .rejoining then (s.foundStore i).newestInterval else 0) ∧
    t.store = (s.foundStore i).push (.header t.hdr false) ∧
    t.ckpt = (if t.hdr.state = .rejoining then some (s.clock.now + ms 10000) else none) ∧
    (∀ e ∈ t.store.dir, e.pins = 0 ∧ e.img.sealed = true) ∧ t.rep = { jobs := [], lastJob := 0 } ∧
    t.prn = freshPrinter i.straps.printer ∧ t.line.queue = [] ∧ t.line.roster = [] ∧
    (t.line.muted = true ↔ i.straps.station = 0 ∨ i.straps.station = 15) ∧
    t.line.beaconTimer = t.ownNumber.map (fun n => s.clock.now + ms (50 * n)) ∧
    t.ctr = { badPages := satAdd 0 (s.store.cut.atRestart i.failingPages).2.2 }

/-- What a restart leaves that ends with SUPPLY WARN asserted: the part is PARKED at once, with the header of the restart
written once more (R16, R20, R21). -/
def State.parkedAfter (t s : State) (c : Cause) (i : RestartInputs) : Prop :=
  t.mode = .parked ∧ t.straps = i.straps ∧ t.pins = s.pins ∧ t.lastCause = c ∧ t.hdr = s.foundHeader.restarted c ∧
    t.clock = { s.clock with survey := s.foundHeader.checkpoint, phase := 0 } ∧ t.tb.state = .stopped ∧
    t.ev = { event := none, seq := (s.foundStore i).restoredSeq t.stationNo } ∧
    t.notes = (s.foundStore i).rebuildNotes s.foundHeader.checkpoint ∧ t.cap = { ring := [], slots := [] } ∧
    t.har.current = none ∧ t.har.settling = none ∧ t.har.accum = none ∧ t.rep = { jobs := [], lastJob := 0 } ∧
    t.prn = freshPrinter i.straps.printer ∧ t.line.queue = [] ∧ t.line.roster = [] ∧ t.line.beaconTimer = none ∧ t.ckpt = none ∧
    t.store = ((s.foundStore i).push (.header t.hdr false)).push (.header t.hdr false) ∧
    t.ctr = { badPages := satAdd 0 (s.store.cut.atRestart i.failingPages).2.2 }

/-! ## Closing and parking -/

/-- R6 stage 1 and R20 stage 2, from `s` to `a`: an open event is sealed with outcome `code`, as a SAG SUMMARY whose record is
asked for and whose page is handed over, or is lost and counted (R68, R71). -/
def State.eventSealed (s a : State) (code : Nat) : Prop :=
  (s.ev.event = none → a = s) ∧
  ∀ e, s.ev.event = some e →
    let page := e.bytes s.stationNo s.channels code s.clock.survey (e.unsure || s.provisional) (s.attach e.start s.clock.survey)
    let made := s.create ⟨.sag, none, none, 1⟩
    page[5]? = some (BitVec.ofNat 8 code) ∧
      (∀ n, made.2 = some n → a = { made.1 with
        ev := { s.ev with event := none }
        store := { made.1.store with writes := made.1.store.writes ++ [.page n 0 page .seal] } }) ∧
      (made.2 = none → a = { made.1 with
        ev := { s.ev with event := none }
        ctr := { made.1.ctr with summariesLost := satAdd made.1.ctr.summariesLost 1 } })

/-- R6 stage 2 and R20 stage 3, from `a` to `b`: each running capture is sealed with outcome `cause`, one at its 2048th post
instant COMPLETE, and its closing writes are handed over, the lowest slot first (R94, R95; log 55): the partly filled page, or,
where there is none, the entry of a page list to be shortened and the final header page. -/
def State.capturesSealed (a b : State) (cause : CapOutcome) : Prop :=
  let open' := a.cap.slots.filter fun sl => !sl.closing
  let shut := fun sl : Slot =>
    { sl with closing := true, outcome := if sl.running then cause else .complete, unsure := sl.unsure || a.provisional }
  let header := fun sl : Slot => (shut sl).headerBytes a.channels
  let shorter := fun sl : Slot => sl.buf = [] ∧ ∃ e, a.store.entryOf sl.record = some e ∧ sl.nextPos < e.img.pages.length
  b = { a with cap := b.cap, store := { a.store with dir := b.store.dir, writes := b.store.writes } } ∧
    b.cap.ring = a.cap.ring ∧
    ((a.cap.slots.map (·.num)).Nodup →
      b.cap.slots = a.cap.slots.map fun sl => if sl.closing then sl else { shut sl with buf := [] }) ∧
    (∀ sl, (header sl)[6]? = some (BitVec.ofNat 8 (if sl.running then cause else .complete).code)) ∧
    b.store.writes = a.store.writes ++ (open'.flatMap fun sl =>
      if sl.buf ≠ [] then [.page sl.record sl.nextPos sl.buf (.close (header sl))]
      else match a.store.entryOf sl.record with
        | some e =>
          if sl.nextPos < e.img.pages.length then [.sys (.entry e.index (some sl.record)) false, .page sl.record 0 (header sl) .seal]
          else [.page sl.record 0 (header sl) .seal]
        | none => [.page sl.record 0 (header sl) .seal]) ∧
    b.store.dir.map (·.img) = a.store.dir.map (·.img) ∧
    (∀ e ∈ a.store.dir, (∀ sl ∈ open', shorter sl → sl.record ≠ e.img.record) → e ∈ b.store.dir) ∧
    ((a.store.dir.map (·.img.record)).Nodup → (open'.map (·.record)).Nodup →
      ∀ e ∈ a.store.dir, ∀ sl ∈ open', shorter sl → sl.record = e.img.record → { e with keep := some sl.nextPos } ∈ b.store.dir)

/-- R6 stage 3 and R20 stage 4, from `b` to `c`: the blocks are abandoned, and an interval with a counted block is sealed
PARTIAL, with the SUPPLY flag on parking, and its record asked for, or is lost and counted; one without a block is discarded
(R114 to R116). -/
def State.intervalSealed (b c : State) (supply : Bool) : Prop :=
  let har := { b.har with current := none, settling := none, blockCounter := 0, accum := none }
  (b.har.accum = none → c = { b with har := har }) ∧
  ∀ x, b.har.accum = some x →
    let page := x.bytes b.hdr.params.un (decide (x.counted < b.hdr.params.k)) supply (x.startUnsure || x.stopUnsure || b.provisional)
      (b.attach x.start x.stop)
    let made := b.create ⟨.interval, none, none, 1⟩
    let counted := { made.1.ctr with intervalsSealed := satAdd b.ctr.intervalsSealed 1 }
    (∃ flags : BitVec 8, page[1]? = some flags ∧ flags.getLsbD 0 = decide (x.counted < b.hdr.params.k) ∧ flags.getLsbD 2 = supply) ∧
      (∀ n, made.2 = some n → c = { made.1 with
        har := har, ctr := counted
        store := { made.1.store with writes := made.1.store.writes ++ [.page n 0 page .seal] } }) ∧
      (made.2 = none → c = { made.1 with
        har := har, ctr := { counted with intervalsLost := satAdd b.ctr.intervalsLost 1 } })

/-- The sealing with which a close or parking begins, from `s` to `b`: the open event, and then the captures (R6 stages 1 and 2,
R20 stages 2 and 3). -/
def State.sealingBegun (s b : State) (code : Nat) (cause : CapOutcome) : Prop :=
  ∃ a : State, s.eventSealed a code ∧ a.capturesSealed b cause

/-- The closing writes of the captures that a close or parking sealed have ended: each of their records is SEALED with the
positions it does not keep released, or gone (R95, R134, R136). -/
def State.closingWritesEnded (s : State) (records : List Nat) : Prop :=
  ∀ r ∈ records, ∀ e, s.store.entryOf r = some e → e.img.sealed = true ∧ e.keep = none

/-- The rest of the closing operation, from a state `b` in which the captures' closing writes have ended (R6 stages 3 to 5, R7):
an interval is sealed PARTIAL, the timebase stops, the header is written with state CLOSED and survey time as checkpoint, and each
SURVEY CLOSE that asked for it is answered. -/
def State.closeFinished (t b : State) (asked : List Nat) : Prop :=
  ∃ c, { b with sup := { b.sup with sealing := none } }.intervalSealed c false ∧
    let hdr := { b.hdr with state := .closed, checkpoint := b.clock.survey }
    let u := { c with
      tb := { b.tb with state := .stopped }, hdr := hdr, ckpt := none
      store := { c.store with writes := c.store.writes ++ [.header hdr false] } }
    t = asked.foldl (fun x sender => x.answer 2 0 0 false sender) u

/-- What the closing operation makes of a state `s` that measures (R6): everything open is sealed with CUT, the event first, then
the captures, whose closing writes are made in their stage (R95); the rest comes in the same command where these have ended. -/
def State.closesFrom (t s : State) (asked : List Nat) : Prop :=
  let records := (s.cap.slots.filter fun sl => sl.running).map (·.record)
  ∃ b, s.sealingBegun b 2 .cut ∧ (b.closingWritesEnded records → t.closeFinished b asked) ∧
    (¬b.closingWritesEnded records → t = { b with sup := { b.sup with sealing := some ⟨records, .close asked⟩ } })

/-- The rest of parking, from a state `b` in which the captures' closing writes have ended (R20 stages 4 to 7): an interval is
sealed PARTIAL with the SUPPLY flag, the jobs end ABANDONED without frames and their pins are released, the header is written with
the state in it and survey time as checkpoint, and the part stops. -/
def State.parkFinished (t b : State) : Prop :=
  ∃ c, { b with sup := { b.sup with sealing := none } }.intervalSealed c true ∧
    let hdr := { b.hdr with checkpoint := b.clock.survey }
    t = { c with
      hdr := hdr, ckpt := none, tb := { b.tb with state := .stopped }
      rep := { b.rep with jobs := [] }
      ctr := b.rep.jobs.foldl (fun k _ => { k with jobsAbandoned := satAdd k.jobsAbandoned 1 }) c.ctr
      store := { b.rep.jobs.foldl (fun st j => j.records.foldl Store.unpin st) c.store with
        writes := c.store.writes ++ [.header hdr false] }
      line := { b.line with beaconTimer := none }
      prn := { b.prn with inactivity := none, goTimer := none } }

/-- What the stages 2 to 7 of parking make of a PARKED state `s` whose line has stopped (R20): the page writes of one-page records
that wait are not made (log 22), everything open is sealed with SUPPLY, the event first, then the captures, whose closing writes
are made in their stage (R95); the rest comes in the same command where these have ended. -/
def State.parksFrom (t s : State) : Prop :=
  let records := (s.cap.slots.filter fun sl => sl.running).map (·.record)
  ∃ b, { s with
      sup := { s.sup with parkWait := false }
      store := { s.store with writes := s.store.writes.filter s.store.keptAtParking } }.sealingBegun b 3 .supply ∧
    (b.closingWritesEnded records → t.parkFinished b) ∧
    (¬b.closingWritesEnded records → t = { b with sup := { b.sup with sealing := some ⟨records, .park⟩ } })

/-- The entry of `s` into PARKED (R20): the line stops, and the other stages wait for a page write under way. -/
def State.parkEntered (t s : State) : Prop :=
  let p := { s with mode := .parked, line := { s.line with queue := [] }, sup := { s.sup with parkDue := false } }
  (s.store.pageUnderWay = true → t = { p with sup := { p.sup with parkWait := true } }) ∧
    (s.store.pageUnderWay = false → t.parksFrom p)

/-! ## The end of a write -/

/-- The commands that end a write of the store port (R12, R120, R132). -/
def endsAWrite (c : Instr) : Prop :=
  ∃ ok, c = .pageWriteComplete ok ∨ c = .systemWriteComplete ok ∨ c = .headerWriteComplete ok

/-- The command ends the page write under way, so that what waits for it goes on (R4, R20): the write matches, or, at a record's
second failure, the retirement of its page ends with a write of the BAD list (log 26). -/
def State.endsPageWrite (s : State) (c : Instr) : Prop :=
  (c = .pageWriteComplete true ∧ (∀ x, s.store.retiring = some x → x.listed = true) ∧
    ∃ r pos bs next rest, s.store.writes = .page r pos bs next :: rest) ∨
  ∃ ok copy retried rest x, c = .systemWriteComplete ok ∧ s.store.writes = .sys (.bad copy) retried :: rest ∧
    s.store.retiring = some x ∧ x.listed = false ∧ x.second = true ∧ (ok = true ∨ (copy = true ∧ retried = true))

/-! ## Received frames -/

/-- The beacon fields that a command's frame gives the roster (R193). -/
def rosterFields : Instr → Option BeaconInfo
  | .beacon _ f => some (infoOf f)
  | _ => none

end Sys2Proof.Machine
end

