-- ==== Sys2Proof/Certificates/Slice0/Obligations.lean ====
section
/-!
DEFINITION. The statements about the JS640, for the provers. Each docstring names the rules it rests on; where a clause rests
on a choice of the model it names the log entry.
-/

open Sys2Proof Sys2Proof.Machine

/-! ## The machine as a whole -/

/-- A step runs the command that has waited longest with the rest of the queue; with none waiting a millisecond of the crystal
passes (the model's choice, log 1). -/
def Obligations.StepRunsFrontCommand : Prop :=
  (∀ (c : Instr) (rest : List Instr) (s : State), s.pending = c :: rest → step s = exec c { s with pending := rest }) ∧
    ∀ s : State, s.pending = [] → step s = .next s.tick

/-- No command touches the queue of the commands that wait behind it. -/
def Obligations.CommandsLeaveTheQueue : Prop := ∀ (c : Instr) (s t : State), exec c s = .next t → t.pending = s.pending

/-- The data pages keep their canonical form through every step (log 8). -/
def Obligations.MemoryFormKept : Prop := ∀ s t : State, s.memoryOk → step s = .next t → t.memoryOk

/-- The transmit queue never passes 8 frames, with one frame under transmission and one waiting beacon at most, and a MUTED
station queues none, through every step (R185, R186, R190). That a beacon whose attempt is over leaves the queue where a later
one waits is the model's choice (log 47). -/
def Obligations.TransmitQueueKept : Prop := ∀ s t : State, s.lineOk → step s = .next t → t.lineOk

/-- The printer service keeps its bounds, and one job PRINTING at most, through every step (R173 to R178). -/
def Obligations.PrinterServiceKept : Prop := ∀ s t : State, s.prn.ok → step s = .next t → t.prn.ok

/-- Through every step the notes table keeps at most 32 entries and at most 4 SITE entries (R143, R146, R148, R153), the job
table, the pre-trigger ring, the crossing history and the restart log keep their sizes (R14, R29, R76, R156), and every station
counter saturates at 65535 (R22). At most three captures stand in slots of their own (R78). The directory holds at most 1024
entries, whose page lists name data pages, none of them owned twice and none BAD but for a page whose failed write is being
settled (R121, R122, R133). Every record that a job lists is live and SEALED, and its pin count is how often the jobs list it
(R131). -/
def Obligations.TablesKeepTheirSizes : Prop :=
  ∀ s t : State, step s = .next t → (notesOk s.notes → notesOk t.notes) ∧ (s.bounded → t.bounded) ∧ (s.ctr.ok → t.ctr.ok) ∧
    (slotsOk s.cap.slots → slotsOk t.cap.slots) ∧ (s.directoryOk → t.directoryOk) ∧ (s.pinsOk → t.pinsOk)

/-- The state after reset is sound in all these ways (State.reset is the model's choice, log 3). -/
def Obligations.ResetIsSound : Prop :=
  State.reset.memoryOk ∧ State.reset.lineOk ∧ State.reset.prn.ok ∧ notesOk State.reset.notes ∧ State.reset.ctr.ok ∧
    State.reset.bounded ∧ slotsOk State.reset.cap.slots ∧ State.reset.directoryOk ∧ State.reset.pinsOk

/-! ## Frames on the line -/

/-- A frame of any kind that R198 lays out, at any priority, is received as the command it was sent for: its bits with their
stuffing, its CRC and its payload come back whole (R180, R181, R187, R197, R198). -/
def Obligations.FramesComeBackWhole : Prop :=
  ∀ (pr : BitVec 3) (c : Instr) (f : RawFrame), c.wellFormed = true → frameOf pr c = some f → receiveCommand f.send = some c

/-- A frame handed over to a full queue displaces the youngest frame of strictly higher priority number not under transmission,
or is not queued; with room it joins at the end; a MUTED station's is discarded (R185, R186, R190). A beacon, whose priority
number is the highest, first removes an earlier one that waits, displaces no other frame, and leaves one under transmission. A
withdrawal removes the copies that wait, has one under transmission not tried again, and leaves every other frame where it
stands (R186). -/
def Obligations.HandingOverAFrame : Prop :=
  (∀ (s : State) (p : Payload) (a : Nat), p.isBeacon = true →
    let others := s.line.queue.filter fun f => !f.payload.isBeacon || f.sending
    (s.line.muted = true → s.send p a = s) ∧
    (s.line.muted = false → others.length < 8 →
      s.send p a = { s with line := { s.line with queue := others ++ [⟨p, a, s.clock.now, 0, false, false⟩] } }) ∧
    (s.line.muted = false → 8 ≤ others.length → s.send p a = { s with line := { s.line with queue := others } })) ∧
  (∀ (l : Line) (which : Payload → Bool),
    let w := l.withdraw which
    w = { l with queue := w.queue } ∧
      w.queue.filter (fun f => !which f.payload) = l.queue.filter (fun f => !which f.payload) ∧
      w.queue.filter (fun f => which f.payload) =
        (l.queue.filter fun f => which f.payload && f.sending).map (fun f => { f with noRetry := true }) ∧
      w.queue.length = (l.queue.filter fun f => !which f.payload || f.sending).length) ∧
  ∀ (s : State) (p : Payload) (a : Nat), p.isBeacon = false →
    (s.line.muted = true → s.send p a = s) ∧
    (s.line.muted = false → s.line.queue.length < 8 →
      s.send p a = { s with line := { s.line with queue := s.line.queue ++ [⟨p, a, s.clock.now, 0, false, false⟩] } }) ∧
    (s.line.muted = false → 8 ≤ s.line.queue.length →
      (∀ f ∈ s.line.queue, f.sending = false → f.payload.priority ≤ p.priority) → s.send p a = s) ∧
    ∀ (older younger : List TxFrame) (f : TxFrame), s.line.muted = false → 8 ≤ s.line.queue.length →
      s.line.queue = older ++ f :: younger → f.sending = false → p.priority < f.payload.priority →
      (∀ g ∈ younger, g.sending = false → g.payload.priority ≤ p.priority) →
      s.send p a = { s with line := { s.line with queue := older ++ younger ++ [⟨p, a, s.clock.now, 0, false, false⟩] } }

/-! ## Supply and restart -/

/-- POWER_ON of a part in any mode (the model's reading, log 18), PIN_RESET of a part with supply, and RELEASE_TIMER once
parking has reached its last stage run a restart of their cause. With SUPPLY WARN released every block stands as R16 and R17
say, the sequence counter, the notes table and the interval counter read from the store as found, with the header write of stage
8 handed over (R100, R153). With it asserted the part enters PARKED at once, with the state of the header in it (R20, R21). A
restart that the release timer left for the end of parking follows the write that ends it (R21; log 21). What the restart reads:
the store by `Store.readsAsFound`; every FILLING entry is sealed LOST POWER, a WAVEFORM with its verified positions or its
header alone (R138), the entries written from the lowest on (log 55), and shows OPEN in its header page, whose other bytes stay
(R98, R199; log 6); one verified before the cut keeps the values of its opening or conversion while the system region shows its
entry FILLING (R97; log 50); the sequence counter follows the highest sequence named for this station (R16 stage 7); the notes
table is rebuilt from the newest 32 NOTE records, said here of records without a CORRECTION and at most 4 SITE (R153), two of
one id among them or not (log 65); and the interval counter is that of the newest INTERVAL record (R100). The model's choices:
time passes to the deadline (log 4), frames and samples are taken as soon as the restart's writes are handed over (log 25), the
millisecond begins anew (its reading, log 2), and the timebase's other items stand as at a start (log 9). A format goes on from
the BAD list read, or tests every data page, and hands over the BAD list, every entry, empty, from entry 0 on (log 55), the
control page and the fresh header (R11, R139). How the claims to a page named by several entries are resolved is its choice too
(logs 46 and 57), and when (log 64). -/
def Obligations.RestartLeavesTheBlocks : Prop :=
  (∀ (i : RestartInputs) (s : State),
    (s.pins.supplyWarn = false →
      (∃ t, exec (.powerOn i) s = .next t ∧ t.restartedFrom s .powerOn i) ∧
      (s.mode ≠ .off → ∃ t, exec (.pinReset i) s = .next t ∧ t.restartedFrom s .pinReset i) ∧
      ∀ d : Nat, s.sup.releaseTimer = some d → (s.passTo d).parkingDone = true →
        ∃ t, exec (.releaseTimer i) s = .next t ∧ t.restartedFrom (s.passTo d) .supplyDip i) ∧
    (s.pins.supplyWarn = true →
      (∃ t, exec (.powerOn i) s = .next t ∧ t.parkedAfter s .powerOn i) ∧
      (s.mode ≠ .off → ∃ t, exec (.pinReset i) s = .next t ∧ t.parkedAfter s .pinReset i))) ∧
  (∀ (i : RestartInputs) (s : State) (h : Header) (retried : Bool) (rest : List StoreWrite), s.mode = .parked →
    s.sup.restartDue = some i → s.sup.parkWait = false → s.sup.sealing = none → s.pins.supplyWarn = false →
    s.store.writes = .header h retried :: rest →
    let written := { s with store := { s.store with nv := s.store.nv.putHeader h, writes := rest } }
    (rest = [] → ∃ t, exec (.headerWriteComplete true) s = .next t ∧ t.restartedFrom written .supplyDip i) ∧
    (rest ≠ [] → exec (.headerWriteComplete true) s = .next written)) ∧
  (∀ (c : Instr) (i : RestartInputs) (s : State), endsAWrite c → s.mode = .parked → s.sup.restartDue = some i →
    s.sup.parkWait = false → s.sup.sealing = none → s.sup.opening = none → s.pins.supplyWarn = false →
    ∃ t u, exec c s = .next t ∧ exec c { s with sup := { s.sup with restartDue := none } } = .next u ∧
      (u.store.writes = [] → t.restartedFrom u .supplyDip i) ∧ (u.store.writes ≠ [] → t = { u with sup := s.sup })) ∧
  (∀ nv : Region,
    nv.readBad = (match nv.badCopy false, nv.badCopy true with
      | some a, some b => if a.count < b.count then some b else some a
      | some a, none => some a
      | none, b => b) ∧
    nv.readCtl = (match nv.ctlCopy false, nv.ctlCopy true with
      | some a, some b => if a.count < b.count then some b else some a
      | some a, none => some a
      | none, b => b)) ∧
  (∀ (st : Store) (failing : List Nat), st.readsAsFound failing) ∧
  (∀ (st : Store) (failing : List Nat), st.nv.header = none →
    let out := st.atRestart failing
    out.1 = ⟨0, .idle, defaultParams, 0, 0, []⟩ ∧ out.2.1.dir = [] ∧ out.2.1.last = 0 ∧ out.2.1.nv.sys = st.nv.sys ∧
      (∀ c, st.nv.readBad = some c → out.2.1.bad = c.pages ∧ out.2.1.nv = st.nv ∧ out.2.2 = 0) ∧
      (st.nv.readBad = none → (∀ p, p ∈ out.2.1.bad ↔ isDataPage p ∧ p ∈ failing) ∧ out.2.1.bad.Nodup ∧
        out.2.2 = out.2.1.bad.length ∧
        ∀ a, isDataPage (a / 1024) → a / 1024 ∉ failing → out.2.1.nv.mem.read a = 0) ∧
      out.2.1.writes = st.writes ++ [.sys (.bad false) false, .sys (.bad true) false] ++
        (List.range 1024).map (fun e => .sys (.entry e none) false) ++
        [.sys (.ctl false) false, .sys (.ctl true) false, .header out.1 false]) ∧
  (∀ st : Store, (st.dir.map (·.index)).Nodup →
    let wave := fun e : Entry => e ∈ st.dir ∧ e.img.sealed = false ∧ e.img.tag = .waveform
    st.losePower.nv.sys = st.nv.sys ∧
      (∀ e p, wave e → e.img.pages.head? = some p → isDataPage p → st.losePower.field e.img 6 1 = 0) ∧
      (∀ a, (∀ e, wave e → a ≠ e.img.pages.headD 0 * 1024 + 6) → st.losePower.nv.mem.read a = st.nv.mem.read a) ∧
      st.losePower.dir = st.dir.map (fun e => if e.img.sealed then e else { e with img := { e.img with
        sealed := true, outcome := .lostPower,
        pages := if e.img.tag = .waveform then e.img.pages.take (if e.img.verified = 0 then 1 else e.img.verified)
          else e.img.pages } }) ∧
      st.losePower.writes = st.writes ++
        (st.dir.filter fun e => !e.img.sealed).map fun e => .sys (.entry e.index (some e.img.record)) false) ∧
  (∀ (st : Store) (e : Entry) (d : DirImage) (p : Nat), e ∈ st.dir → e.opened ≠ [] → st.nv.entry e.index = some d →
    d.record = e.img.record → d.sealed = false → d.pages.head? = some p → isDataPage p →
    (∀ x ∈ st.dir, x ≠ e → ∀ d', st.nv.entry x.index = some d' → d'.pages.head? ≠ some p) →
    (∀ item again, st.writes.head? ≠ some (.sys item again)) →
    ∀ a, a / 1024 = p → st.cut.nv.mem.read a = e.opened.getD (a % 1024) 0) ∧
  (∀ (st : Store) (own : Nat),
    (∀ n, st.names own n → (∀ m, st.names own m → m ≤ n) → st.restoredSeq own = if n = 65535 then 1 else n + 1) ∧
      ((∀ n, ¬st.names own n) → st.restoredSeq own = 1)) ∧
  (∀ (st : Store) (checkpoint : Nat) (l : List Entry), (st.dir.map (·.img.record)).Nodup →
    (∀ e, e ∈ l ↔ e ∈ st.dir ∧ e.img.tag = .note ∧ e.img.sealed = true ∧ e.img.outcome ≠ .lostPower) →
    l.Pairwise (fun a b => a.img.record < b.img.record) →
    let used := lastOf 32 l
    (∀ e ∈ used, st.field e.img 1 1 = 1 ∨ st.field e.img 1 1 = 2) →
    (used.filter fun e => st.field e.img 1 1 == 1).length ≤ 4 →
    st.rebuildNotes checkpoint = used.map fun e =>
      let span := st.field e.img 3 1
      let received := st.field e.img 8 4
      let stop := min (received + 60000 * span) 4294967295
      let ends := st.field e.img 1 1 = 2 ∧ 0 < span
      ⟨st.field e.img 4 2, st.field e.img 1 1 == 1, st.bytes e.img 14 (st.field e.img 13 1), received,
        if ends then some stop else none, decide (ends ∧ stop ≤ checkpoint), none, some e.img.record⟩) ∧
  ∀ st : Store, (st.dir.map (·.img.record)).Nodup →
    let whole := fun e : Entry => e ∈ st.dir ∧ e.img.tag = .interval ∧ e.img.sealed = true ∧ e.img.outcome ≠ .lostPower
    (∀ e, whole e → (∀ x, whole x → x.img.record ≤ e.img.record) → st.newestInterval = st.field e.img 4 2) ∧
      ((∀ e, ¬whole e) → st.newestInterval = 0)

/-- SUPPLY_LOSS stops the part: nothing that was volatile is left, no write goes on, and header, straps, pins and the clock stay
(R15). That volatile state is cleared already at the loss is the model's choice (log 39): the manual clears it at the restart
(R16 stage 1). -/
def Obligations.SupplyLossStopsThePart : Prop :=
  ∀ s : State, ∃ t, exec .supplyLoss s = .next t ∧ t.mode = .off ∧ t.store.writes = [] ∧ t.line.queue = [] ∧ t.line.roster = [] ∧
    t.rep.jobs = [] ∧ t.notes = [] ∧ t.cap = { ring := [], slots := [] } ∧ t.ev.event = none ∧ t.ctr = {} ∧
    t.tb.state = .stopped ∧ t.lev = freshLevel s.channels ∧ t.har = freshHarmonic 0 ∧ t.prn = freshPrinter false ∧
    t.hdr = s.hdr ∧ t.straps = s.straps ∧ t.pins = s.pins ∧ t.clock = s.clock

/-- SUPPLY_WARN parks a part that runs: with no page write under way the line stops, the open event is sealed SUPPLY as a SAG
SUMMARY, and each running capture SUPPLY with its closing writes, in this order; where no capture runs, a counted interval is
sealed PARTIAL with the SUPPLY flag, so that nothing is left open, the jobs end, the header is written with the state from which
the part parked and survey time as checkpoint, and the part stops, within the same command. With captures sealed, these stages
wait for the write that ends the last of their closing writes (R20, R95). With a page write under way the line stops and the
stages 2 to 7 follow the command that ends it (R20). While an acceptance or a close is under way SUPPLY_WARN only asks for
parking, and the write that completes it parks the part from the state it left, RECORDING or CLOSED (R4, R6, R20). That the
retirement of the page of a mismatch, and the repeat, count as the page write under way is the model's reading (log 26), and so
is which page writes parking makes (log 22); that the other stages come about in one command is its choice (log 25), and so are
the order of the captures (log 55) and that the EVENT lamp stays lit until the event's stage and the timebase's state until the
last (log 61). -/
def Obligations.SupplyWarnParks : Prop :=
  (∀ s : State, s.mode = .running → s.sup.opening = none → s.sup.sealing = none →
    ∃ t, exec .supplyWarn s = .next t ∧
      t.parkEntered { s with pins := { s.pins with supplyWarn := true }, sup := { s.sup with releaseTimer := none } } ∧
      t.mode = .parked ∧ t.pins = { s.pins with supplyWarn := true } ∧ t.line.queue = [] ∧ t.clock = s.clock ∧
      t.straps = s.straps ∧
      (s.store.pageUnderWay = false → t.ev.event = none ∧ (∀ sl ∈ t.cap.slots, sl.closing = true) ∧
        ((∀ sl ∈ s.cap.slots, sl.running = false) → t.sup.sealing = none ∧ t.line.beaconTimer = none ∧ t.har.current = none ∧
          t.har.settling = none ∧ t.har.accum = none ∧ t.rep.jobs = [] ∧ t.hdr = { s.hdr with checkpoint := s.clock.survey } ∧
          StoreWrite.header t.hdr false ∈ t.store.writes ∧ t.ckpt = none ∧ t.tb.state = .stopped))) ∧
  (∀ s : State, s.mode = .running → s.sup.opening ≠ none ∨ s.sup.sealing ≠ none →
    exec .supplyWarn s = .next { s with
      pins := { s.pins with supplyWarn := true }, sup := { s.sup with releaseTimer := none, parkDue := true } }) ∧
  (∀ (s : State) (c : Instr), s.sup.restartDue = none → s.sup.sealing = none → s.endsPageWrite c →
    (s.mode = .parked → s.sup.opening = none → s.sup.parkWait = true →
      ∃ t u, exec c s = .next t ∧ exec c { s with sup := { s.sup with parkWait := false } } = .next u ∧ t.parksFrom u) ∧
    ∀ q, s.mode = .running → s.sup.opening = some q → s.sup.parkDue = true → s.sup.parkWait = false →
      ∃ t u, exec c s = .next t ∧ exec c { s with sup := { s.sup with parkDue := false } } = .next u ∧
        t.parksFrom { u with mode := .parked, line := { u.line with queue := [] } } ∧ u.hdr.state = .recording ∧
        t.mode = .parked ∧ t.sup.opening = none ∧ t.sup.parkDue = false ∧ t.hdr.number = q.number ∧ t.hdr.params = q.params ∧
        t.hdr.state = .recording ∧ t.hdr.checkpoint = t.clock.survey ∧ StoreWrite.header t.hdr false ∈ t.store.writes ∧
        t.store.dir = [] ∧ t.line.queue = [] ∧ t.tb.state = .stopped) ∧
  ∀ (s : State) (c : Instr) (records : List Nat), endsAWrite c → s.sup.restartDue = none → s.sup.opening = none →
    s.sup.parkWait = false →
    (s.mode = .parked → s.sup.sealing = some ⟨records, .park⟩ →
      ∃ t u, exec c s = .next t ∧ exec c { s with sup := { s.sup with sealing := none } } = .next u ∧
        (u.closingWritesEnded records → t.parkFinished u) ∧
        (¬u.closingWritesEnded records → t = { u with sup := s.sup })) ∧
    ∀ asked, s.mode = .running → s.sup.sealing = some ⟨records, .close asked⟩ → s.sup.parkDue = true →
      ∃ t u, exec c s = .next t ∧ exec c { s with sup := { s.sup with sealing := none } } = .next u ∧
        (u.closingWritesEnded records → ∃ x : State, x.closeFinished u asked ∧ t.parkEntered x) ∧
        (¬u.closingWritesEnded records → t = { u with sup := s.sup })

/-- In PARKED the release of SUPPLY WARN starts the 100 ms release timer, and a further assertion cancels it; a release timer
that expires while parking runs its stages leaves the restart for their end (R21). That these have ended when no write of the
store port waits is the model's reading (log 21), and that time passes to the deadline its choice (log 4). -/
def Obligations.ReleaseTimerStartsAndIsCancelled : Prop :=
  ∀ s : State, s.mode = .parked →
    (s.pins.supplyWarn = true → exec .supplyWarnRelease s = .next { s with
      pins := { s.pins with supplyWarn := false }, sup := { s.sup with releaseTimer := some (s.clock.now + ms 100) } }) ∧
    exec .supplyWarn s = .next { s with
      pins := { s.pins with supplyWarn := true }, sup := { s.sup with releaseTimer := none } } ∧
    ∀ (i : RestartInputs) (d : Nat), s.sup.releaseTimer = some d → (s.passTo d).parkingDone = false →
      exec (.releaseTimer i) s =
        .next { s.passTo d with sup := { s.sup with releaseTimer := none, restartDue := some i } }

/-! ## Survey control -/

/-- The parameters in force of every SURVEY OPEN are the values received, each outside its range clamped to the nearer limit: a
frequency below 55 gives 50 and any other 60, send and accept are on exactly when nonzero, and the label keeps its length with
each character outside 0x20 to 0x7E replaced by '?' (R3, R200). So they lie in their ranges, and Ts + H ≤ 10000 ≤ Tw − H and Ti
+ H < Ts hold; an answer carries the clamped flag exactly when a value was changed (R3). That the label, whose characters may be
replaced, has no part in the flag is the model's reading (log 36). -/
def Obligations.ParametersInForce : Prop :=
  ∀ f : SurveyOpenFrame,
    let p := Params.ofFrame f
    (500 ≤ p.un ∧ p.un ≤ 5000) ∧ (p.hz = 50 ∨ p.hz = 60) ∧ (5000 ≤ p.ts ∧ p.ts ≤ 9500) ∧ (100 ≤ p.ti ∧ p.ti ≤ 2000) ∧
      (10500 ≤ p.tw ∧ p.tw ≤ 15000) ∧ (50 ≤ p.h ∧ p.h ≤ 500) ∧ (1 ≤ p.k ∧ p.k ≤ 3000) ∧ (25 ≤ p.qh ∧ p.qh ≤ 90) ∧
      p.hours ≤ 23 ∧ p.minutes ≤ 59 ∧ p.seconds ≤ 59 ∧ p.ts + p.h ≤ 10000 ∧ 10000 ≤ p.tw - p.h ∧ p.ti + p.h < p.ts ∧
      (480 ≤ p.quota ∧ p.quota ≤ 1728) ∧
      (let limited := fun lo hi v w : Nat => (v < lo → w = lo) ∧ (lo ≤ v → v ≤ hi → w = v) ∧ (hi < v → w = hi)
       limited 500 5000 f.un.toNat p.un ∧ limited 5000 9500 f.ts.toNat p.ts ∧ limited 100 2000 f.ti.toNat p.ti ∧
         limited 10500 15000 f.tw.toNat p.tw ∧ limited 50 500 f.h.toNat p.h ∧ limited 1 3000 f.k.toNat p.k ∧
         limited 25 90 f.qh.toNat p.qh ∧ limited 0 23 f.hours.toNat p.hours ∧ limited 0 59 f.minutes.toNat p.minutes ∧
         limited 0 59 f.seconds.toNat p.seconds) ∧
      (f.hz.toNat < 55 → p.hz = 50) ∧ (55 ≤ f.hz.toNat → p.hz = 60) ∧
      (p.send = true ↔ f.send ≠ 0) ∧ (p.accept = true ↔ f.accept ≠ 0) ∧ p.quota = 1920 * p.qh / 100 ∧
      p.label.length = f.label.length ∧
      (∀ (i : Nat) (c : Byte), f.label[i]? = some c → p.label[i]? = some (if 0x20 ≤ c ∧ c ≤ 0x7E then c else 0x3F)) ∧
      (wasClamped f = false ↔ p.un = f.un.toNat ∧ p.hz = f.hz.toNat ∧ p.ts = f.ts.toNat ∧ p.ti = f.ti.toNat ∧ p.tw = f.tw.toNat ∧
        p.h = f.h.toNat ∧ p.k = f.k.toNat ∧ p.qh = f.qh.toNat ∧ p.hours = f.hours.toNat ∧ p.minutes = f.minutes.toNat ∧
        p.seconds = f.seconds.toNat)

/-- SURVEY_OPEN is accepted in IDLE with any number and in CLOSED with another number: with no job held and no page write under
way, the store is cleared but for its BAD pages, with the pending page writes not made and the BAD list, every entry and the
control page written, the header is written, the counters zeroed, the tables emptied, measurement started and the answer sent;
printer service and pins stay (R4, R22, R23, R139). The jobs held, at other stations' printers, are abandoned first, in the
order of their entries (log 53), each past ASKED with a DROP ahead of the answer (R4, R164). With a page write under way the
acceptance waits for it, and is completed when it ends, with survey time counted from the end of the frame (R4; log 23); that
the retirement of the page of a mismatch and the repeat of its write belong to it is the model's reading (log 26). That the
answer goes out while the writes of the acceptance wait to be verified is the model's choice (log 25), and so is that the entries
are written empty from entry 0 on (log 55). -/
def Obligations.SurveyOpenAccepted : Prop :=
  (∀ (rx : Rx) (f : SurveyOpenFrame) (s : State), s.takes rx → f.WellFormed → f.number ≠ 0 →
    (s.hdr.state = .idle ∨ (s.hdr.state = .closed ∧ f.number.toNat ≠ s.hdr.number)) → s.rep.jobs = [] →
    s.store.pageUnderWay = false →
    ∃ t, exec (.surveyOpen rx f) s = .next t ∧
      t.hdr = ⟨f.number.toNat, .recording, Params.ofFrame f, 0, 0, []⟩ ∧ t.clock = ⟨s.clock.now, 0, 0⟩ ∧ t.ctr = {} ∧ t.notes = [] ∧
      t.ev = ⟨none, 1⟩ ∧ t.tb = Timebase.start (hzOf f.hz.toNat) s.clock.now ∧ t.lev = freshLevel s.channels ∧
      t.cap = ⟨[], []⟩ ∧ t.har = freshHarmonic 0 ∧ t.store.dir = [] ∧ t.store.last = 0 ∧ t.store.bad = s.store.bad ∧
      t.store.writes = s.store.writes.filter (fun w => !w.isPage) ++ [.sys (.bad false) false, .sys (.bad true) false] ++
        (List.range 1024).map (fun e => .sys (.entry e none) false) ++
        [.sys (.ctl false) false, .sys (.ctl true) false, .header t.hdr false] ∧
      t.ckpt = some (s.clock.now + ms 10000) ∧
      t.line = ((s.heard rx).answer 1 0 0 (wasClamped f) rx.sender.toNat).line ∧ t.rep = s.rep ∧ t.prn = s.prn ∧
      t.mode = s.mode ∧ t.pins = s.pins ∧ t.straps = s.straps) ∧
  (∀ (rx : Rx) (f : SurveyOpenFrame) (s : State), s.takes rx → f.WellFormed → f.number ≠ 0 →
    (s.hdr.state = .idle ∨ (s.hdr.state = .closed ∧ f.number.toNat ≠ s.hdr.number)) →
    (s.store.pageUnderWay = false → (∀ j ∈ s.rep.jobs, j.printer ≠ .own) →
      let dropTo := fun (x : State) (j : Job) => match j.printer with
        | .station n => if j.state = .asked then x else x.send (.drop j.number) n
        | .own => x
      ∃ t, exec (.surveyOpen rx f) s = .next t ∧ t.rep = { s.rep with jobs := [] } ∧ t.store.dir = [] ∧ t.ctr = {} ∧
        t.hdr = ⟨f.number.toNat, .recording, Params.ofFrame f, 0, 0, []⟩ ∧ t.prn = s.prn ∧
        t.line = ((s.rep.jobs.foldl dropTo (s.heard rx)).answer 1 0 0 (wasClamped f) rx.sender.toNat).line) ∧
    (s.store.pageUnderWay = true → s.rep.jobs = [] →
      exec (.surveyOpen rx f) s = .next { s.heard rx with sup := { s.sup with
        opening := some ⟨rx.sender.toNat, f.number.toNat, Params.ofFrame f, wasClamped f, s.clock.now⟩ } })) ∧
  ∀ (s : State) (q : OpenRequest) (c : Instr), s.mode = .running → s.sup.opening = some q → s.sup.parkDue = false →
    s.sup.restartDue = none → s.sup.sealing = none → s.endsPageWrite c →
    ∃ t, exec c s = .next t ∧ t.sup.opening = none ∧ t.hdr = ⟨q.number, .recording, q.params, 0, 0, []⟩ ∧
      t.store.dir = [] ∧ t.store.last = 0 ∧ t.ctr = {} ∧ t.notes = [] ∧ t.tb = Timebase.start q.params.hz s.clock.now ∧
      t.clock.now = s.clock.now ∧ t.clock.survey = min ((s.clock.now - q.frameEnd) / 40000) 4294967295 ∧
      t.line = (s.answer 1 0 0 q.clamped q.sender).line ∧ t.prn = s.prn ∧ t.rep = s.rep

/-- SURVEY_OPEN that is not accepted: SURVEY USED in CLOSED with the header's number, SURVEY RUNNING in RECORDING and REJOINING
with another number, and no answer to a repeat or to number 0 (R5). SURVEY_CLOSE in CLOSED with the header's number is answered
ACCEPTED again; with any other number, and in IDLE, it is ignored (R7). Nothing else changes. -/
def Obligations.SurveyCommandsRefusedOrIgnored : Prop :=
  ∀ (rx : Rx) (s : State), s.takes rx →
    (∀ f : SurveyOpenFrame, f.WellFormed →
      (f.number = 0 → exec (.surveyOpen rx f) s = .next (s.heard rx)) ∧
      (f.number ≠ 0 → s.hdr.state = .closed → f.number.toNat = s.hdr.number →
        exec (.surveyOpen rx f) s = .next ((s.heard rx).answer 1 1 0 false rx.sender.toNat)) ∧
      (f.number ≠ 0 → s.hdr.state = .recording ∨ s.hdr.state = .rejoining →
        exec (.surveyOpen rx f) s = .next (if f.number.toNat = s.hdr.number then s.heard rx
          else (s.heard rx).answer 1 2 0 false rx.sender.toNat))) ∧
    ∀ n : BitVec 16,
      (s.hdr.state = .closed → n.toNat = s.hdr.number →
        exec (.surveyClose rx n) s = .next ((s.heard rx).answer 2 0 0 false rx.sender.toNat)) ∧
      (n.toNat ≠ s.hdr.number ∨ s.hdr.state = .idle → exec (.surveyClose rx n) s = .next (s.heard rx))

/-- SURVEY_CLOSE of the current survey closes it: the open event is sealed CUT as a SAG SUMMARY, and each running capture CUT
with its closing writes; where no capture runs, a counted interval is sealed PARTIAL, so that nothing is left open, the timebase
stops, the header is written with state CLOSED and survey time as checkpoint, and the answer goes out, within the same command;
jobs, roster, notes and the watermark stay (R6, R7, R68, R114, R116). With captures sealed, these stages wait for the write that
ends the last of their closing writes, which are made in the stage that seals the captures, so that the interval's request finds
the pages they will not write FREE (R95, R130). No boundary is evaluated after the close has begun (R42); that no instant at all is
taken until its end, though the strobe ceases at stage 4, is the model's choice, and so is that a further SURVEY CLOSE meanwhile
is answered with the close (log 63). The answer that goes out before the header's write is verified (log 25) and the order of the
captures (log 55) are its choices too. -/
def Obligations.SurveyCloseCloses : Prop :=
  (∀ (rx : Rx) (n : BitVec 16) (s : State), s.takes rx → s.measuring = true → n.toNat = s.hdr.number →
    ∃ t, exec (.surveyClose rx n) s = .next t ∧ t.closesFrom (s.heard rx) [rx.sender.toNat] ∧
      t.ev.event = none ∧ (∀ sl ∈ t.cap.slots, sl.closing = true) ∧ t.rep = s.rep ∧ t.prn = s.prn ∧ t.notes = s.notes ∧
      t.clock = s.clock ∧ t.lev = s.lev ∧ t.mode = s.mode ∧ t.pins = s.pins ∧ t.straps = s.straps ∧
      ((∀ sl ∈ s.cap.slots, sl.running = false) → t.sup.sealing = none ∧
        t.hdr = { s.hdr with state := .closed, checkpoint := s.clock.survey } ∧ t.har.current = none ∧ t.har.settling = none ∧
        t.har.accum = none ∧ t.tb = { s.tb with state := .stopped } ∧ StoreWrite.header t.hdr false ∈ t.store.writes ∧
        t.ckpt = none ∧ t.line = ((s.heard rx).answer 2 0 0 false rx.sender.toNat).line)) ∧
  ∀ (s : State) (records asked : List Nat), s.mode = .running → s.sup.sealing = some ⟨records, .close asked⟩ →
    (∀ (rx : Rx) (n : BitVec 16), s.takes rx → s.inSurvey = true → n.toNat = s.hdr.number →
      exec (.surveyClose rx n) s = .next { s.heard rx with
        sup := { s.sup with sealing := some ⟨records, .close (asked ++ [rx.sender.toNat])⟩ } }) ∧
    (∀ x, exec (.instant ⟨x, none⟩) s = .next s) ∧
    ∀ c, endsAWrite c → s.sup.restartDue = none → s.sup.opening = none → s.sup.parkWait = false → s.sup.parkDue = false →
      ∃ t u, exec c s = .next t ∧ exec c { s with sup := { s.sup with sealing := none } } = .next u ∧
        (u.closingWritesEnded records → t.closeFinished u asked) ∧
        (¬u.closingWritesEnded records → t = { u with sup := s.sup })

/-- SURVEY_TIME_LIMIT closes a survey that measures, at 4,000,000,000 ms or later, by the closing operation, which seals
everything open with CUT and waits for the closing writes of the captures it seals, and sends nothing (R6, R8, R95; its writes
and their order are logs 25, 55 and 63). CHECKPOINT_TIMER writes the header with survey time as checkpoint and starts again for
10,000 ms in RECORDING and REJOINING (R12). With a close under way the limit only lets time pass, and the checkpoint goes on as
before, since the state is left at the end of the close alone (log 63). That time passes to the deadline is the model's choice
(log 4). -/
def Obligations.SurveyTimersWriteTheHeader : Prop :=
  ∀ s : State, s.inSurvey = true →
    (s.sup.sealing = none →
      ∃ t, exec .surveyTimeLimit s = .next t ∧ t.closesFrom (s.passToSurvey 4000000000) [] ∧
      4000000000 ≤ t.clock.survey ∧ t.line = s.line ∧ t.rep = s.rep ∧ t.pins = s.pins ∧
      ((∀ sl ∈ s.cap.slots, sl.running = false) →
        t.hdr.state = .closed ∧ t.hdr.checkpoint = t.clock.survey ∧ t.tb.state = .stopped)) ∧
    (s.sup.sealing ≠ none → exec .surveyTimeLimit s = .next (s.passToSurvey 4000000000)) ∧
    ∀ d : Nat, s.ckpt = some d →
      ∃ t, exec .checkpointTimer s = .next t ∧ t.hdr = { s.hdr with checkpoint := t.clock.survey } ∧
        t.store = { s.store with writes := s.store.writes ++ [.header t.hdr false] } ∧ t.ckpt = some (t.clock.now + ms 10000) ∧
        t.clock.now = max s.clock.now d ∧ t.tb = s.tb ∧ t.line = s.line ∧ t.rep = s.rep ∧ t.ctr = s.ctr ∧ t.pins = s.pins

/-! ## Timebase and measurement -/

/-- INSTANT: a strobe takes one instant at its tick, a change of P that waits for the strobe comes about (R38), the next strobe
follows R25's step, the index follows R26, the ring takes the fitted channels' samples as its newest (R76), and every channel's
window takes its sample as its newest of 128, with its sum of squares and its count of clipped samples (R43). Of the line only
the TRIGGER of an event opening here is new (R60, R87); jobs, printer, header and straps stay. The crossing watch sees the
instant, and at an evaluated boundary the level monitor takes its report, the event unit acts on it with the captures as the
instant left them, and the timebase makes its reference test (R27, R28, R44, R54; the order inside the instant is the model's
reading, log 19). A block that is not full takes the instant, an instant of index 0 begins a block where none is current, and a
boundary in an own event marks it; the sums take the sample by the tables C and Sn (R101, R104, R108, R109). Without an
evaluated boundary the open event stays, and each RUNNING capture takes the instant and hands a full page to the store (R83). A
TRIGGER that comes during the instant is taken after the captures have taken it and before the event unit takes the boundary's
report, so that a companion with no post instant yet is converted with offset 0 (R86, R91, R93); without a boundary it is taken
at the end, and where no instant is taken alone; both are the model's form of that command (log 69), and so is that no instant is
taken while a close waits for its captures' closing writes (log 63) and that time passes to the strobe (log 4). -/
def Obligations.InstantIsTaken : Prop :=
  (∀ (x : Samples) (s : State) (rx : Rx) (f : TriggerFrame), s.measuring = false ∨ s.tb.state = .stopped →
    exec (.instant ⟨x, none⟩) s = .next s ∧ exec (.instant ⟨x, some (rx, f)⟩) s = exec (.trigger rx f) s) ∧
  (∀ (x : Samples) (s : State), s.measuring = true → s.tb.state ≠ .stopped →
    ∃ t, exec (.instant ⟨x, none⟩) s = .next t ∧ t.clock.now = max s.clock.now s.tb.nextStrobe ∧
      (let p := s.tb.nextPeriod.getD s.tb.period
       t.tb.nextStrobe = s.tb.nextStrobe + (stepOf p s.tb.frac).1 ∧ t.tb.frac = (stepOf p s.tb.frac).2 ∧
         s.tb.strobe.period = p ∧ t.tb.nextPeriod = none) ∧
      t.tb.index = some s.tb.nextIndex ∧ t.cap.ring = pushBounded 512 s.cap.ring (s.fitted x) ∧ t.hdr = s.hdr ∧ t.rep = s.rep ∧
      t.prn = s.prn ∧ t.pins = s.pins ∧ t.straps = s.straps ∧
      (let xs := (s.fitted x).map BitVec.toInt
       let at' := s.passTo s.tb.nextStrobe
       let due := boundaryDue s.tb.nextIndex (min (s.lev.count + 1) 128)
       let lev := s.lev.take xs
       let report := lev.report s.hdr.params at'.clock.survey
       let watched := (s.tb.strobe.watch s.hdr.params.hz s.hdr.params.un s.tb.nextStrobe xs).1
       t.clock = at'.clock ∧
       t.lev = (if due then lev.evaluate report else lev) ∧
       t.tb = (if due then (watched.reference (report.volts.map (·.after))).1 else watched) ∧
       (due = true → ∃ m : State, m.clock = at'.clock ∧ m.notes = at'.notes ∧ m.hdr = s.hdr ∧ m.straps = s.straps ∧ m.line = s.line ∧
         m.mode = s.mode ∧ m.sup = s.sup ∧ m.ev = s.ev ∧ m.tb = watched ∧ m.cap = (s.captureInstant (s.fitted x)).cap ∧
         (s.har.current = none ∨ (∃ b, s.har.current = some b ∧ b.taken < blockInstants s.hdr.params.hz) →
           m.store = (s.captureInstant (s.fitted x)).store ∧ m.ctr = s.ctr) ∧
         t.ev = (m.takeReport report s.tb.state).ev ∧ t.cap = (m.takeReport report s.tb.state).cap ∧
         t.line = (m.takeReport report s.tb.state).line ∧
         ∀ (rx : Rx) (f : TriggerFrame), ∃ m' t', exec (.trigger rx f) m = .next m' ∧
           exec (.instant ⟨x, some (rx, f)⟩) s = .next t' ∧ t'.ev = (m'.takeReport report s.tb.state).ev ∧
           t'.cap = (m'.takeReport report s.tb.state).cap ∧ t'.line = (m'.takeReport report s.tb.state).line ∧
           t'.clock = t.clock ∧ t'.lev = t.lev ∧ t'.tb = t.tb ∧ t'.har = t.har ∧ t'.hdr = t.hdr ∧
           ∀ sl, s.ev.event = none → report.worst.isSome = true → m'.companions.getLast? = some sl → sl.post = 0 →
             ∃ own ∈ t'.cap.slots, own.record = sl.record ∧ own.kind = .own ∧ own.converted = true ∧ own.offset = 0) ∧
       (due = false → ∀ (rx : Rx) (f : TriggerFrame), exec (.instant ⟨x, some (rx, f)⟩) s = exec (.trigger rx f) t) ∧
       (∀ b, s.har.current = some b → b.taken < blockInstants s.hdr.params.hz →
         ∃ b', t.har.current = some b' ∧ b'.taken = b.taken + 1 ∧ b'.sums = List.zipWith (addSample b.taken) xs b.sums ∧
           b'.first = b.first ∧ b'.last = t.clock.survey ∧ b'.interval = b.interval ∧
           (b.tbMark = true ∨ s.tb.state ≠ .locked → b'.tbMark = true) ∧
           (b'.evMark = true ↔ b.evMark = true ∨ (due = true ∧ t.ev.event ≠ none))) ∧
       (s.har.current = none → s.tb.nextIndex ≠ 0 → t.har.current = none) ∧
       (s.har.current = none → s.tb.nextIndex = 0 → ∃ b', t.har.current = some b' ∧ b'.taken = 1 ∧ b'.first = t.clock.survey ∧
         b'.interval = t.har.intervalCounter)) ∧
      (s.ev.event = none → s.hdr.params.send = true → ∀ e, t.ev.event = some e →
        t.line = s.line.handOver t.clock.now (.trigger s.hdr.number e.seq e.kind.code e.start) 15) ∧
      (s.ev.event ≠ none ∨ s.hdr.params.send = false ∨ t.ev.event = none → t.line = s.line) ∧
      t.lev.count = min (s.lev.count + 1) 128 ∧
      (∀ (i : Nat) (c : Chan) (v : BitVec 16), s.lev.chans[i]? = some c → (s.fitted x)[i]? = some v → c.window.length ≤ 128 →
        ∃ c', t.lev.chans[i]? = some c' ∧ c'.window = pushBounded 128 c.window v.toInt ∧
          (c.sumSq = (c.window.map square).sum → c'.sumSq = (c'.window.map square).sum) ∧
          (c.clips = (c.window.filter isClipped).length → c'.clips = (c'.window.filter isClipped).length)) ∧
      (boundaryDue s.tb.nextIndex (min (s.lev.count + 1) 128) = false →
        t.ev = s.ev ∧ t.cap.slots.length = s.cap.slots.length ∧
        ∀ (i : Nat) (sl : Slot), s.cap.slots[i]? = some sl →
          (sl.running = false → t.cap.slots[i]? = some sl) ∧
          (sl.running = true → t.cap.slots[i]? = some (sl.take (s.fitted x) s.store).1))) ∧
  (∀ (n h : Nat) (x : Int) (sums : List (Int × Int)) (re im : Int), h < 40 → sums[h]? = some (re, im) →
    (addSample n x sums)[h]? = some (re + x * cosTable ((h + 1) * n % 128), im + x * sinTable ((h + 1) * n % 128))) ∧
  ∀ (sl : Slot) (xs : List (BitVec 16)) (st : Store),
    let held := sl.buf ++ instantBytes xs
    (held.length < 1024 → sl.take xs st = ({ sl with post := sl.post + 1, buf := held }, st)) ∧
    (1024 ≤ held.length → sl.take xs st =
      ({ sl with post := sl.post + 1, buf := held.drop 1024, nextPos := sl.nextPos + 1 },
        { st with writes := st.writes ++ [.page sl.record sl.nextPos (held.take 1024) .more] }))

/-- "Over any 128 consecutive steps at one value of P, the steps add up to exactly P ticks" (R25): 128 strobes move the next
strobe by P and carry the step fraction back to where it was, P being the one to which it changes at the first of these strobes,
where a change waits (R38). -/
def Obligations.StrobesSpanThePeriod : Prop :=
  ∀ tb : Timebase, tb.frac < 128 →
    (Nat.repeat Timebase.strobe 128 tb).nextStrobe = tb.nextStrobe + tb.nextPeriod.getD tb.period ∧
      (Nat.repeat Timebase.strobe 128 tb).frac = tb.frac ∧
      (Nat.repeat Timebase.strobe 128 tb).period = tb.nextPeriod.getD tb.period

/-- A rising crossing is taken on the reference channel where a sample of 0 or more follows one below 0 with both arming marks
set, the later sample's own among them; it stands at the interpolated tick, clears the marks, and forms an interval with the
last crossing, which joins the history (R28, R29). What a crossing interval, which stands last in the history, does. In LOCKED
one in range sets P to the floor of the mean of the last 4 intervals, which is in range when they are, and is an index reset
that judges its cycle regular exactly at 128 instants (R32, R33); one out of range leaves P as it was and goes to HOLDOVER
(R34). In FREE and PEER it locks the timebase when the 8 intervals are in range and differ by at most 5 thousandths of their
mean (R31). In HOLDOVER the second of two that qualify against the held P locks it with these two, and any other sets the count
back (R35). At a boundary an INTERRUPTED reference channel gives way to the lowest voltage channel that is not: the history is
emptied, and LOCKED goes to HOLDOVER (R27). -/
def Obligations.LockedFollowsItsCrossings : Prop :=
  (∀ (tb : Timebase) (hz un t : Nat) (xs : List Int),
    let mark : Int := ((un / 5 : Nat) : Int)
    let b := xs.getD tb.ref 0
    let low := tb.armLow = true ∨ b ≤ -mark
    let high := tb.armHigh = true ∨ mark ≤ b
    let armed := { tb with armLow := decide low, armHigh := decide high, prev := some (t, xs) }
    (tb.prev = none → tb.watch hz un t xs = (armed, .nothing)) ∧
    ∀ (ta : Nat) (old : List Int), tb.prev = some (ta, old) →
      let a := old.getD tb.ref 0
      let tick := ta + (t - ta) * (-a).toNat / (b - a).toNat
      let taken := { armed with armLow := false, armHigh := false, lastCrossing := some tick }
      (¬(a < 0 ∧ 0 ≤ b ∧ low ∧ high) → tb.watch hz un t xs = (armed, .nothing)) ∧
      (a < 0 → 0 ≤ b → low → high →
        (∀ l, tb.lastCrossing = some l →
          tb.watch hz un t xs = { taken with history := pushBounded 8 tb.history (tick - l) }.interval hz (tick - l)) ∧
        (tb.lastCrossing = none → tb.state ≠ .locked → tb.watch hz un t xs = (taken, .nothing)))) ∧
  (∀ (tb : Timebase) (hz i : Nat), tb.state = .locked → tb.history ≠ [] →
    (periodInRange hz i = true →
      tb.interval hz i = ({ tb with period := (lastOf 4 tb.history).sum / (lastOf 4 tb.history).length, resetNext := true,
                                    cycle := 0 }, .judged (tb.cycle == 128)) ∧
      ((∀ h ∈ lastOf 4 tb.history, periodInRange hz h = true) → periodInRange hz (tb.interval hz i).1.period = true)) ∧
    (periodInRange hz i = false →
      tb.interval hz i = ({ tb with state := .holdover, held := 0, qual := 0 }, .unjudged))) ∧
  (∀ (tb : Timebase) (hz i : Nat), tb.state = .free ∨ tb.state = .peer →
    let met := tb.history.length = 8 ∧ (∀ a ∈ tb.history, periodInRange hz a = true) ∧
      ∀ a ∈ tb.history, ∀ b ∈ tb.history, a - b ≤ tb.history.sum / 8 * 5 / 1000
    (met → tb.interval hz i =
      ({ tb with state := .locked, period := (lastOf 4 tb.history).sum / 4, nextPeriod := none, resetNext := true, cycle := 0,
                 held := 0, qual := 0, source := none }, .nothing)) ∧
    (¬met → tb.interval hz i = (tb, .nothing))) ∧
  (∀ (tb : Timebase) (hz i : Nat), tb.state = .holdover →
    let fits := periodInRange hz i = true ∧ i ≤ tb.period + tb.period * 2 / 100 ∧ tb.period ≤ i + tb.period * 2 / 100
    (fits → tb.qual = 1 → 2 ≤ tb.history.length → tb.interval hz i =
      ({ tb with state := .locked, history := lastOf 2 tb.history, period := (lastOf 2 tb.history).sum / 2,
                 nextPeriod := none, resetNext := true, cycle := 0, held := 0, qual := 0, source := none }, .nothing)) ∧
    (fits → tb.qual ≠ 1 → tb.interval hz i = ({ tb with qual := tb.qual + 1 }, .nothing)) ∧
    (¬fits → tb.interval hz i = ({ tb with qual := 0 }, .nothing))) ∧
  ∀ (tb : Timebase) (states : List ChState), states.length = 3 → tb.ref < 3 →
    (states[tb.ref]? ≠ some .interrupted ∨ (∀ x ∈ states, x = .interrupted) → tb.reference states = (tb, .nothing)) ∧
    ∀ r : Nat, states[tb.ref]? = some .interrupted → r < 3 → states[r]? ≠ some .interrupted →
      (∀ q, q < r → states[q]? = some .interrupted) →
      let moved := { tb with ref := r, history := [], lastCrossing := none, armLow := false, armHigh := false, qual := 0 }
      tb.reference states =
        if tb.state = .locked then ({ moved with state := .holdover, held := 0 }, .unjudged) else (moved, .nothing)

/-- CROSSING_TIMEOUT: in LOCKED, floor(3 × P / 2) ticks after the last crossing, the timebase enters HOLDOVER and holds P (R34,
R35). HOLDOVER_EXPIRY, and PEER_SOURCE_LAPSE 2000 ms after the source's last beacon: the choice of R37 is made, and the timebase
follows the chosen peer's frequency, P changing at the next strobe, or enters FREE at the nominal period with no source; the
crossing history is kept (R36, R38). That P changes at the next strobe also where no beacon brings the frequency is the model's
choice (log 62), and so are that time passes to the deadline (log 4) and that these timers act while a close waits for its
captures' closing writes (log 63). -/
def Obligations.TimebaseTimersHoldAndChoose : Prop :=
  (∀ (s : State) (l : Nat), s.inSurvey = true → s.tb.state = .locked → s.tb.lastCrossing = some l →
    ∃ t, exec .crossingTimeout s = .next t ∧ t.tb = { s.tb with state := .holdover, held := 0, qual := 0 } ∧
      t.clock.now = max s.clock.now (l + 3 * s.tb.period / 2) ∧ t.line = s.line ∧ t.cap = s.cap ∧ t.lev = s.lev ∧ t.hdr = s.hdr ∧
      t.rep = s.rep ∧ t.pins = s.pins) ∧
  (∀ s : State, s.inSurvey = true → s.tb.state = .holdover → 2048 ≤ s.tb.held →
    exec .holdoverExpiry s = .next { s with tb := match s.peerChoice with
      | some (n, f) => { s.tb with state := .peer, nextPeriod := some (40000000000 / f), source := some n, held := 0, qual := 0 }
      | none => { s.tb with state := .free, period := nominalPeriod s.hdr.params.hz, nextPeriod := none, source := none,
                            held := 0, qual := 0 } }) ∧
  ∀ (s : State) (n b : Nat), s.inSurvey = true → s.tb.state = .peer → s.tb.source = some n →
    (s.line.entryOf n).bind (·.lastBeacon) = some b →
    exec .peerSourceLapse s = .next { s.passTo (b + ms 2000) with tb := match (s.passTo (b + ms 2000)).peerChoice with
      | some (n, f) => { s.tb with state := .peer, nextPeriod := some (40000000000 / f), source := some n, held := 0, qual := 0 }
      | none => { s.tb with state := .free, period := nominalPeriod s.hdr.params.hz, nextPeriod := none, source := none,
                            held := 0, qual := 0 } }

/-- The chosen peer is a roster entry whose last beacon reported LOCKED, is fresh, and published a frequency in range, and no
lower-numbered station of a rising roster qualifies; none is chosen only when no entry qualifies (R37, R30). -/
def Obligations.PeerChoiceIsLowestQualifying : Prop :=
  (∀ s : State, s.peerChoice = none → ∀ e ∈ s.line.roster, ∀ b, e.beacon = some b →
    b.tbState ≠ 1 ∨ freqInRange s.hdr.params.hz b.freq = false ∨ e.fresh s.clock.now = false) ∧
  ∀ (s : State) (n f : Nat), s.line.roster.Pairwise (fun a b => a.station < b.station) → s.peerChoice = some (n, f) →
    ∃ e b, e ∈ s.line.roster ∧ e.station = n ∧ e.beacon = some b ∧ b.freq = f ∧ b.tbState = 1 ∧ freqInRange s.hdr.params.hz f = true ∧
      e.fresh s.clock.now = true ∧ ∀ e' ∈ s.line.roster, e'.qualifies s.clock.now s.hdr.params.hz = true → n ≤ e'.station

/-- At an evaluated boundary every voltage channel takes its new state from its own state before it and its own new level,
clipped or not, by the tables of R50 to R52; every voltage channel is NORMAL at a start (R50). The premises are what parameters
in force satisfy (R3). -/
def Obligations.ChannelStatesFollowTheTables : Prop :=
  (∀ (n : Nat) (v : Volt), v ∈ (freshLevel n).volts → v.st = .normal) ∧
  ∀ (p : Params) (l : Level) (t i : Nat) (c : Chan) (v : Volt), p.ti + p.h < p.ts → p.ts + p.h ≤ 10000 → 10000 ≤ p.tw - p.h →
    i < 3 → l.chans[i]? = some c → l.volts[i]? = some v →
    ∃ r, (l.report p t).volts[i]? = some r ∧ (l.evaluate (l.report p t)).volts[i]? = some ⟨some r.level, r.after⟩ ∧
      r.level = min (rmsOf c.sumSq * 10000 / (64 * p.un)) 65535 ∧
      (v.st = .normal →
        (r.level < p.ti → r.after = .interrupted) ∧ (p.ti ≤ r.level → r.level < p.ts → r.after = .sagged) ∧
        (p.ts ≤ r.level → r.level ≤ p.tw → r.after = .normal) ∧ (p.tw < r.level → r.after = .swollen)) ∧
      (v.st = .sagged →
        (r.level < p.ti → r.after = .interrupted) ∧ (p.ti ≤ r.level → r.level < p.ts + p.h → r.after = .sagged) ∧
        (p.ts + p.h ≤ r.level → r.level ≤ p.tw → r.after = .normal) ∧ (p.tw < r.level → r.after = .swollen)) ∧
      (v.st = .interrupted →
        (r.level < p.ti + p.h → r.after = .interrupted) ∧
        (p.ti + p.h ≤ r.level → r.level < p.ts + p.h → r.after = .sagged) ∧
        (p.ts + p.h ≤ r.level → r.level ≤ p.tw → r.after = .normal) ∧ (p.tw < r.level → r.after = .swollen)) ∧
      (v.st = .swollen →
        (r.level < p.ti → r.after = .interrupted) ∧ (p.ti ≤ r.level → r.level < p.ts → r.after = .sagged) ∧
        (p.ts ≤ r.level → r.level ≤ p.tw - p.h → r.after = .normal) ∧ (p.tw - p.h < r.level → r.after = .swollen))

/-! ## Events and captures -/

/-- TRIGGER, taken in RECORDING or REJOINING for the same survey with cross-trigger accept on: with an own event open its pair
is offered to the related list and no capture opens (R90, R66); with a companion of the same station RUNNING it is ignored
(R91). In any other state, for another survey, or with cross-trigger accept off it refreshes the roster and does nothing else
(R89); the same once a close has stopped the capture unit, which is the model's choice (log 63). -/
def Obligations.TriggerOfferedOrIgnored : Prop :=
  ∀ (rx : Rx) (f : TriggerFrame) (s : State), s.takes rx → 
    ((s.measuring = false ∨ f.number.toNat ≠ s.hdr.number ∨ s.hdr.params.accept = false) →
      exec (.trigger rx f) s = .next (s.heard rx)) ∧
    (s.measuring = true → f.number.toNat = s.hdr.number → s.hdr.params.accept = true →
    (∀ e, s.ev.event = some e → (rx.sender.toNat, f.seq.toNat) ∉ e.related → e.related.length < 4 →
      exec (.trigger rx f) s = .next { s.heard rx with
        ev := { s.ev with event := some { e with related := e.related ++ [(rx.sender.toNat, f.seq.toNat)] } } }) ∧
    (∀ e, s.ev.event = some e → (rx.sender.toNat, f.seq.toNat) ∉ e.related → 4 ≤ e.related.length →
      exec (.trigger rx f) s = .next { s.heard rx with
        ctr := { s.ctr with companionsMissed := satAdd s.ctr.companionsMissed 1 } }) ∧
    (∀ e, s.ev.event = some e → (rx.sender.toNat, f.seq.toNat) ∈ e.related → exec (.trigger rx f) s = .next (s.heard rx)) ∧
    (s.ev.event = none → (∃ sl ∈ s.cap.slots, sl.running = true ∧ sl.kind = .companion ∧ sl.station = rx.sender.toNat) →
      exec (.trigger rx f) s = .next (s.heard rx)))

/-- TRIGGER with no own event open and no companion of its station RUNNING, a slot FREE and the record granted: a companion of
level 0 opens in the lowest FREE slot as that record, with the ring's instants as its pre instants, no post instant, and the lag
of R92, and companions opened rises (R78, R82, R91, R92). With no slot FREE, or with the record refused, nothing opens and
companions missed rises (R79, R81). -/
def Obligations.TriggerOpensACompanion : Prop :=
  (∀ (rx : Rx) (f : TriggerFrame) (s : State), s.takes rx → s.measuring = true → f.number.toNat = s.hdr.number →
    s.hdr.params.accept = true → s.ev.event = none →
    (∀ sl ∈ s.cap.slots, ¬(sl.running = true ∧ sl.kind = .companion ∧ sl.station = rx.sender.toNat)) →
    (freeSlot s.cap.slots = none → exec (.trigger rx f) s = .next { s.heard rx with
      ctr := { s.ctr with companionsMissed := satAdd s.ctr.companionsMissed 1 } }) ∧
    ∀ n : Nat, freeSlot s.cap.slots = some n →
      let made := s.create ⟨.waveform, some .companion, none, plannedPages s.cap.ring.length s.channels⟩
      made.2 = none → exec (.trigger rx f) s = .next { made.1 with
        line := (s.heard rx).line
        ctr := { made.1.ctr with companionsMissed := satAdd made.1.ctr.companionsMissed 1 } }) ∧
  ∀ (rx : Rx) (f : TriggerFrame) (s : State) (n r : Nat), s.takes rx → s.measuring = true → f.number.toNat = s.hdr.number →
    s.hdr.params.accept = true → s.ev.event = none →
    (∀ sl ∈ s.cap.slots, ¬(sl.running = true ∧ sl.kind = .companion ∧ sl.station = rx.sender.toNat)) →
    freeSlot s.cap.slots = some n →
    (s.create ⟨.waveform, some .companion, none, plannedPages s.cap.ring.length s.channels⟩).2 = some r →
    ∃ t sl, exec (.trigger rx f) s = .next t ∧ t.cap.slots = putSlot s.cap.slots sl ∧ sl.num = n ∧ sl.record = r ∧
      sl.kind = .companion ∧ sl.level = 0 ∧ sl.station = rx.sender.toNat ∧ sl.seq = f.seq.toNat ∧
      sl.originStart = f.start.toNat ∧ sl.opened = s.clock.survey ∧ sl.pre = s.cap.ring.length ∧ sl.post = 0 ∧
      sl.lag = min (s.clock.survey - f.start.toNat) 65535 ∧
      (sl.late = true ↔ (if s.hdr.params.hz = 50 then 60 else 50) < s.clock.survey - f.start.toNat) ∧
      t.ctr.companionsOpened = satAdd s.ctr.companionsOpened 1 ∧ t.cap.ring = s.cap.ring ∧ t.line = (s.heard rx).line ∧
      t.ev = s.ev ∧ t.tb = s.tb ∧ t.hdr = s.hdr ∧ t.rep = s.rep ∧ t.notes = s.notes

/-- The worst kind of a boundary is that of its worst channel: an INTERRUPTED one before a SAGGED one before a SWOLLEN one, and
none with all NORMAL (R59, R62). An event opens at a boundary with a channel out of NORMAL: its record stands, the sequence
counter goes on from 65535 to 1, it is counted, and with cross-trigger send on its TRIGGER goes to all stations; the RUNNING
companions are offered to its related list. The newest of these, at 1024 post instants or fewer, is converted into its own
capture, with its header rewritten (that this header keeps the instants recorded of the opening is the model's reading, log 43,
and that it is written after the entry its choice, log 55); with none such a capture opens in the lowest FREE slot, or a refusal
is counted (R59, R60, R66, R67, R81, R82, R85 to R87). It gathers each boundary: its kind never falls and is the worse of the
two, its duration rises by one until 65535, where a further one sets SATURATED, CLIPPED is set by a report that carries it, each
current's peak takes the greater value, a channel out of NORMAL joins, the residual takes the least level of a sagged or
interrupted channel and the maximum the greatest of a swollen one, and a rise of the kind raises its capture's level (R61 to
R65, R84). A boundary with all channels NORMAL seals it ENDED as a one-page record, or counts a summary lost (R68, R69, R71). -/
def Obligations.EventsGatherTheirBoundaries : Prop :=
  (∀ r : BoundaryReport,
    let shows := fun c : ChState => ∃ v ∈ r.volts, v.after = c
    (shows .interrupted → r.worst = some .interruption) ∧ (¬shows .interrupted → shows .sagged → r.worst = some .sag) ∧
      (¬shows .interrupted → ¬shows .sagged → shows .swollen → r.worst = some .swell) ∧
      ((∀ v ∈ r.volts, v.after = .normal) → r.worst = none)) ∧
  (∀ (e : OpenEvent) (r : BoundaryReport) (k : EventKind),
    let low := fun v : VoltReport => v.after = .sagged ∨ v.after = .interrupted
    let g := e.gather r k
    e.kind.code ≤ g.kind.code ∧ k.code ≤ g.kind.code ∧ (g.kind = e.kind ∨ g.kind = k) ∧
      g.duration = min (e.duration + 1) 65535 ∧ (g.saturated = true ↔ e.saturated = true ∨ e.duration = 65535) ∧
      (g.clipped = true ↔ e.clipped = true ∨ (∃ v ∈ r.volts, v.clipped = true) ∨ ∃ c ∈ r.currents, c.clipped = true) ∧
      (e.duration = 0 → g.peaks = r.currents.map (·.rq)) ∧
      (e.duration ≠ 0 → ∀ (i a : Nat) (c : CurrentReport), e.peaks[i]? = some a → r.currents[i]? = some c →
        g.peaks[i]? = some (max a c.rq)) ∧
      (∀ c ∈ e.involved, c ∈ [1, 2, 3] → c ∈ g.involved) ∧
      (∀ (i : Nat) (v : VoltReport), i < 3 → r.volts[i]? = some v →
        (v.after ≠ .normal → i + 1 ∈ g.involved) ∧
        (low v → ∃ l c, g.residual = some (l, c) ∧ l ≤ v.level) ∧
        (v.after = .swollen → ∃ l c, g.maximum = some (l, c) ∧ v.level ≤ l)) ∧
      (∀ l c, g.residual = some (l, c) →
        e.residual = some (l, c) ∨ ∃ (i : Nat) (v : VoltReport), r.volts[i]? = some v ∧ low v ∧ c = i + 1 ∧ l = v.level) ∧
      (∀ l c, g.maximum = some (l, c) →
        e.maximum = some (l, c) ∨ ∃ (i : Nat) (v : VoltReport), r.volts[i]? = some v ∧ v.after = .swollen ∧ c = i + 1 ∧ l = v.level) ∧
      (∀ l c, e.residual = some (l, c) → ∃ l' c', g.residual = some (l', c') ∧ l' ≤ l) ∧
      (∀ l c, e.maximum = some (l, c) → ∃ l' c', g.maximum = some (l', c') ∧ l ≤ l') ∧
      (∀ l c, e.residual = some (l, c) → (∀ v ∈ r.volts, low v → l ≤ v.level) → g.residual = some (l, c)) ∧
      (∀ l c, e.maximum = some (l, c) → (∀ v ∈ r.volts, v.after = .swollen → v.level ≤ l) → g.maximum = some (l, c)) ∧
      g.seq = e.seq ∧ g.start = e.start ∧ g.related = e.related) ∧
  (∀ (s : State) (r : BoundaryReport) (st : TbState) (k : EventKind), s.ev.event = none → r.worst = some k →
    let t := s.takeReport r st
    let ask : CreateRequest := ⟨.waveform, some .own, none, plannedPages s.cap.ring.length s.channels⟩
    ∃ e, t.ev = { event := some e, seq := if s.ev.seq = 65535 then 1 else s.ev.seq + 1 } ∧ e.seq = s.ev.seq ∧ e.start = r.time ∧
      e.tb = st ∧ e.kind = k ∧ e.duration = 1 ∧ e.saturated = false ∧ e.unsure = s.provisional ∧
      (s.cap.slots.length ≤ 4 → ∀ sl ∈ s.cap.slots, sl.running = true → sl.kind = .companion → (sl.station, sl.seq) ∈ e.related) ∧
      t.ctr.events = satAdd s.ctr.events 1 ∧
      t.line = (if s.hdr.params.send then (s.send (.trigger s.hdr.number s.ev.seq k.code r.time) 15).line else s.line) ∧
      (∀ sl, s.companions.getLast? = some sl → sl.post ≤ 1024 →
        let own := { sl with kind := .own, level := k.code, station := s.stationNo, seq := s.ev.seq, originStart := r.time,
                             converted := true, offset := sl.post }
        e.link = some sl.record ∧ t.cap.slots = s.cap.slots.map (fun x => if x.num == sl.num then own else x) ∧
          t.store.writes.getLast? = some (.page sl.record 0 ({ own with post := 0 }.headerBytes s.channels) .more) ∧
          ∀ x ∈ t.store.dir, x.img.record = sl.record → x.img.capKind = some .own) ∧
      ((∀ sl, s.companions.getLast? = some sl → 1024 < sl.post) → ∀ n, freeSlot s.cap.slots = some n →
        (∀ rec, (s.create ask).2 = some rec → e.link = some rec ∧ ∃ sl ∈ t.cap.slots, sl.num = n ∧ sl.record = rec ∧ sl.kind = .own ∧
          sl.level = k.code ∧ sl.station = s.stationNo ∧ sl.seq = s.ev.seq ∧ sl.pre = s.cap.ring.length ∧ sl.post = 0) ∧
        ((s.create ask).2 = none → e.link = none ∧ t.cap.slots = s.cap.slots ∧
          t.ctr.capturesNoWave = satAdd s.ctr.capturesNoWave 1))) ∧
  ∀ (s : State) (r : BoundaryReport) (st : TbState) (e : OpenEvent), s.ev.event = some e →
    let t := s.takeReport r st
    (∀ k, r.worst = some k → t.ev = { s.ev with event := some (e.gather r k) } ∧ t.line = s.line ∧ t.store = s.store ∧
      t.ctr = s.ctr ∧ t.cap.slots = s.cap.slots.map fun sl =>
        if sl.running = true ∧ sl.kind = .own ∧ sl.station = s.stationNo ∧ sl.seq = e.seq ∧ e.kind.code < k.code then
          { sl with level := k.code }
        else sl) ∧
    (r.worst = none →
      let made := s.create ⟨.sag, none, none, 1⟩
      let page := e.bytes s.stationNo s.channels 1 r.time (e.unsure || s.provisional) (s.attach e.start r.time)
      t.ev = { s.ev with event := none } ∧ t.cap = s.cap ∧ t.line = s.line ∧
        (∀ n, made.2 = some n → t.ctr = made.1.ctr ∧
          t.store = { made.1.store with writes := made.1.store.writes ++ [.page n 0 page .seal] }) ∧
        (made.2 = none → t.store = made.1.store ∧
          t.ctr = { made.1.ctr with summariesLost := satAdd made.1.ctr.summariesLost 1 }))

/-- CAPTURE_COMPLETE seals a capture at its 2048th post instant: its slot is CLOSING with outcome COMPLETE; a partly filled page
is written first, and once it is verified, or at once where there is none, the release of the pages beyond it and the final
header page follow (R94, R95, R136). A request that finds no FREE slot preempts the RUNNING capture of the lowest level below
its own, the earliest opened of these, or is refused (R79); the capture preempted is sealed TRUNCATED, gives up its slot and its
unwritten pages, which are FREE at once, is counted, and its final header page is the last write handed over (R80, R95). That
these pages are FREE before the entry is written is the model's choice (log 13). -/
def Obligations.CaptureIsSealedComplete : Prop :=
  (∀ (s : State) (k : Fin 3) (sl : Slot), s.measuring = true → sl ∈ s.cap.slots → sl.num = k.val + 1 → sl.closing = false →
    2048 ≤ sl.post → (∀ x ∈ s.cap.slots, x.num = sl.num → x = sl) →
    let closed := { sl with closing := true, outcome := .complete, unsure := sl.unsure || s.provisional }
    let header := closed.headerBytes s.channels
    ∃ t, exec (.captureComplete k) s = .next t ∧
      { closed with buf := [] } ∈ t.cap.slots ∧ (∀ x ∈ t.cap.slots, x.num = sl.num → x = { closed with buf := [] }) ∧
      (∀ x ∈ s.cap.slots, x.num ≠ sl.num → x ∈ t.cap.slots) ∧
      (sl.buf ≠ [] → t.store = { s.store with writes := s.store.writes ++ [.page sl.record sl.nextPos sl.buf (.close header)] }) ∧
      (sl.buf = [] → ∀ e, s.store.entryOf sl.record = some e →
        t.store.writes = s.store.writes ++
          (if sl.nextPos < e.img.pages.length then [.sys (.entry e.index (some sl.record)) false] else []) ++
          [.page sl.record 0 header .seal]) ∧
      t.cap.ring = s.cap.ring ∧ t.clock = s.clock ∧ t.tb = s.tb ∧ t.ev = s.ev ∧ t.line = s.line ∧ t.ctr = s.ctr ∧ t.hdr = s.hdr) ∧
  (∀ (s : State) (level : Nat),
    (∀ n, freeSlot s.cap.slots = some n → s.findSlot level = some (s, n)) ∧
    (freeSlot s.cap.slots = none →
      (∀ sl ∈ s.cap.slots, sl.running = true → sl.level < level →
        (∀ x ∈ s.cap.slots, x.running = true → x.level < level → x ≠ sl →
          sl.level < x.level ∨ (sl.level = x.level ∧ sl.record < x.record)) → s.findSlot level = some (s.truncate sl, sl.num)) ∧
      ((∀ sl ∈ s.cap.slots, sl.running = true → level ≤ sl.level) → s.findSlot level = none))) ∧
  ∀ (s : State) (sl : Slot) (e : Entry), s.store.entryOf sl.record = some e →
    let t := s.truncate sl
    let keep := if sl.buf = [] then sl.nextPos else sl.nextPos + 1
    t.cap.slots = s.cap.slots.filter (fun x => x.num != sl.num) ∧
      t.ctr = { s.ctr with capturesTruncated := satAdd s.ctr.capturesTruncated 1 } ∧
      t.store.writes.getLast? = some (.page sl.record 0 ((sl.sealed .truncated s.provisional).headerBytes s.channels) .seal) ∧
      (∃ e', t.store.entryOf sl.record = some e' ∧ e' = { e with img := { e.img with pages := e.img.pages.take keep } }) ∧
      (s.store.used.Nodup → ∀ p ∈ e.img.pages.drop keep, isDataPage p → p ∉ s.store.bad → p ∈ t.store.freePages)

/-! ## Harmonic analysis -/

/-- BLOCK_FULL: a block of N instants stops being current and becomes the settling block, with what it holds (R101).
BLOCK_ARITHMETIC_DONE, with no verdict awaited on the cycle of the last instant, settles the block: exactly one of the
interval's x_T, x_E and m rises, with the counter of its cause; a block that contributes adds its squared amplitudes; it awaits
a verdict otherwise (R102, R110, R112). The first counted block of an interval begins its accumulators at zero with that block's
interval and start (R111, R112). The K-th block seals the interval: it is counted as sealed and stored as a one-page record, or
counted as lost when none is granted (R113 to R115). A verdict on a cycle reaches the current and the settling block that wait
for it: an irregular or unjudged one gives the TIMEBASE mark, which no verdict takes away (R108). What a crossing of an INSTANT
hands over, or the CROSSING_TIMEOUT that leaves the cycle unjudged, settles a settling block whose arithmetic is complete,
within that command; without it the block waits on (R33, R102, R110). That BLOCK_FULL, BLOCK_ARITHMETIC_DONE and
CROSSING_TIMEOUT act also while a close waits for its captures' closing writes is the model's choice (log 63), and so is that
time passes to the strobe or the deadline (log 4). -/
def Obligations.BlocksFillAndSettleOnce : Prop :=
  (∀ (s : State) (b : Block), s.inSurvey = true → s.har.current = some b → s.har.settling = none →
    blockInstants s.hdr.params.hz ≤ b.taken →
    exec .blockFull s = .next { s with har := { s.har with current := none, settling := some b } }) ∧
  (∀ b : Block,
    (b.judged = true → ∀ f, b.hear f = b) ∧
    (b.judged = false → b.hear .nothing = b ∧ b.hear (.judged true) = { b with judged := true } ∧
      b.hear (.judged false) = { b with tbMark := true, judged := true } ∧
      b.hear .unjudged = { b with tbMark := true, judged := true })) ∧
  (∀ (x : Samples) (s : State), s.measuring = true → s.tb.state ≠ .stopped →
    boundaryDue s.tb.nextIndex (min (s.lev.count + 1) 128) = false →
    (∀ b, s.har.current = some b → b.taken < blockInstants s.hdr.params.hz) →
    let effect := (s.tb.strobe.watch s.hdr.params.hz s.hdr.params.un s.tb.nextStrobe ((s.fitted x).map BitVec.toInt)).2
    let bad := effect = .judged false ∨ effect = .unjudged
    ∃ t, exec (.instant ⟨x, none⟩) s = .next t ∧
      (∀ b, s.har.current = some b → ∃ b', t.har.current = some b' ∧
        (b'.tbMark = true ↔ b.tbMark = true ∨ s.tb.state ≠ .locked ∨ bad) ∧
        (b'.judged = true ↔ s.tb.state ≠ .locked ∨ effect ≠ .nothing)) ∧
      ∀ w, s.har.settling = some w → w.judged = false →
        (w.results = none ∨ effect = .nothing → t.har.settling = some (w.hear effect) ∧ t.har.accum = s.har.accum ∧ t.ctr = s.ctr) ∧
        (w.results ≠ none → effect ≠ .nothing →
          let a := s.har.accum.getD (Accum.begin w)
          t.har.settling = none ∧
            (a.counted + 1 < s.hdr.params.k → ∃ a', t.har.accum = some a' ∧ a'.counted = a.counted + 1 ∧
              (w.tbMark = true ∨ bad → a'.xT = a.xT + 1 ∧ a'.sums = a.sums ∧
                t.ctr = { s.ctr with blocksTimebase := satAdd s.ctr.blocksTimebase 1 }) ∧
              (w.tbMark = false → ¬bad → w.evMark = true → a'.xE = a.xE + 1 ∧ a'.sums = a.sums ∧
                t.ctr = { s.ctr with blocksEvent := satAdd s.ctr.blocksEvent 1 }) ∧
              (w.tbMark = false → ¬bad → w.evMark = false → a'.m = a.m + 1 ∧ t.ctr = s.ctr)) ∧
            (s.hdr.params.k ≤ a.counted + 1 → t.har.accum = none ∧ t.ctr.intervalsSealed = satAdd s.ctr.intervalsSealed 1))) ∧
  (∀ (s : State) (l : Nat), s.inSurvey = true → s.tb.state = .locked → s.tb.lastCrossing = some l →
    ∃ t, exec .crossingTimeout s = .next t ∧ t.tb.state = .holdover ∧ t.har.current = s.har.current.map (·.hear .unjudged) ∧
      ∀ w, s.har.settling = some w → w.judged = false →
        (w.results = none → t.har.settling = some { w with tbMark := true, judged := true } ∧ t.har.accum = s.har.accum ∧
          t.ctr = s.ctr) ∧
        (w.results ≠ none →
          let a := s.har.accum.getD (Accum.begin w)
          t.har.settling = none ∧
            (a.counted + 1 < s.hdr.params.k → ∃ a', t.har.accum = some a' ∧ a'.counted = a.counted + 1 ∧ a'.xT = a.xT + 1 ∧
              a'.sums = a.sums ∧ t.ctr = { s.ctr with blocksTimebase := satAdd s.ctr.blocksTimebase 1 }) ∧
            (s.hdr.params.k ≤ a.counted + 1 → t.har.accum = none ∧ t.ctr.intervalsSealed = satAdd s.ctr.intervalsSealed 1))) ∧
  (∀ b : Block, (Accum.begin b).interval = b.interval ∧ (Accum.begin b).start = b.first ∧
    (Accum.begin b).startUnsure = b.firstUnsure ∧ (Accum.begin b).counted = 0 ∧ (Accum.begin b).sums.length = b.sums.length ∧
    (∀ x ∈ (Accum.begin b).sums, x = List.replicate 40 0) ∧ ∀ x ∈ (Accum.begin b).maxima, x = none) ∧
  ∀ (s : State) (b : Block), s.inSurvey = true → s.har.settling = some b → b.results = none →
    (b.judged = true →
      let a := s.har.accum.getD (Accum.begin b)
      let results := (b.compute s.hdr.params).results.getD []
      (a.counted + 1 < s.hdr.params.k →
        ∃ t a', exec .blockArithmeticDone s = .next t ∧ t.har.settling = none ∧ t.har.accum = some a' ∧ a'.counted = a.counted + 1 ∧
          (b.tbMark = true → a'.xT = a.xT + 1 ∧ a'.sums = a.sums ∧ t.ctr = { s.ctr with blocksTimebase := satAdd s.ctr.blocksTimebase 1 }) ∧
          (b.tbMark = false → b.evMark = true →
            a'.xE = a.xE + 1 ∧ a'.sums = a.sums ∧ t.ctr = { s.ctr with blocksEvent := satAdd s.ctr.blocksEvent 1 }) ∧
          (b.tbMark = false → b.evMark = false → a'.m = a.m + 1 ∧ t.ctr = s.ctr ∧
            a'.sums = List.zipWith (fun x r => List.zipWith (fun n amp => n + amp * amp) x r.amps) a.sums results) ∧
          a'.stop = b.last ∧ a'.interval = a.interval ∧ a'.start = a.start ∧ t.store = s.store ∧ t.har.current = s.har.current ∧
          t.line = s.line ∧ t.tb = s.tb) ∧
      (s.hdr.params.k ≤ a.counted + 1 →
        let sum := a.count (b.compute s.hdr.params)
        let page := sum.bytes s.hdr.params.un false false (sum.startUnsure || sum.stopUnsure || s.provisional)
          (s.attach sum.start sum.stop)
        let made := s.create ⟨.interval, none, none, 1⟩
        ∃ t, exec .blockArithmeticDone s = .next t ∧ t.har = { s.har with settling := none, accum := none } ∧
          sum.counted = a.counted + 1 ∧ t.ctr.intervalsSealed = satAdd s.ctr.intervalsSealed 1 ∧
          (∀ n, made.2 = some n → t.ctr.intervalsLost = s.ctr.intervalsLost ∧
            t.store = { made.1.store with writes := made.1.store.writes ++ [.page n 0 page .seal] }) ∧
          (made.2 = none → t.store = made.1.store ∧ t.ctr.intervalsLost = satAdd s.ctr.intervalsLost 1) ∧
          t.line = s.line ∧ t.tb = s.tb ∧ t.ev = s.ev ∧ t.cap = s.cap)) ∧
    (b.judged = false →
      exec .blockArithmeticDone s =
        .next { s with har := { s.har with settling := some (b.compute s.hdr.params) } })

/-! ## The record store -/

/-- A byte read back from the data pages after a write of a page is that page's byte, zero beyond the bytes laid out, and every
byte of every other page reads as before (R125, R132). -/
def Obligations.PageWriteReadsBack : Prop :=
  ∀ (m : Memory) (p : Nat) (bs : List Byte) (a : Nat), isDataPage p →
    (m.writePage p 1024 bs).read a = if a / 1024 = p then bs.getD (a % 1024) 0 else m.read a

/-- A granted creation issues the next record number, fills an entry with the lowest pages that were FREE once room had been
made, in ascending order, and takes away no record that is FILLING or pinned (R123, R124, R126, R128, R131). In a sound
directory one is granted whenever the FREE pages with those of the candidates reach its pages, an entry is empty or can be
emptied, and a number is left; an INTERVAL within its quota likewise (R124, R126, R127). The candidates are the SEALED records
without a pin, by class and within a class by record number; they give way from the head of their list, and only as many as
are needed (R128). An INTERVAL beyond the quota takes the place of the first INTERVAL candidate alone, or is refused when
there is none (R127). That the pages of the records that give way are FREE within the same command is the model's choice (log
56). -/
def Obligations.CreationGrantsFreePages : Prop :=
  (∀ (st : Store) (now quota : Nat) (q : CreateRequest), (st.dir.map (·.index)).Nodup → (∀ e ∈ st.dir, e.index < 1024) →
    st.used.Nodup → (∀ p ∈ st.used, isDataPage p ∧ p ∉ st.bad) → st.last < 4294967295 →
    let pagesOf := fun es : List Entry => (es.map fun e => e.img.pages.length).sum
    let held := pagesOf (st.dir.filter fun e => e.img.tag == .interval)
    ((q.tag ≠ .interval ∨ held + 1 ≤ quota) → q.pages ≤ st.freePages.length + pagesOf st.candidates →
      ((∃ i, i < 1024 ∧ ∀ e ∈ st.dir, e.index ≠ i) ∨ st.candidates ≠ []) →
      ∃ st' es, st.create now quota q = (st', es, some (st.last + 1))) ∧
    (q.tag = .interval → quota < held + 1 →
      (∀ e ∈ st.dir, e.img.tag = .interval → e.img.sealed = true → e.pins = 0 → q.pages ≤ st.freePages.length →
        (∀ x ∈ st.dir, x ≠ e → x.img.tag = .interval → x.img.sealed = true → x.pins = 0 → e.img.record < x.img.record) →
        ∃ st', st.create now quota q = (st', [e], some (st.last + 1))) ∧
      ((∀ e ∈ st.dir, e.img.tag = .interval → e.img.sealed = false ∨ 0 < e.pins) → st.create now quota q = (st, [], none)))) ∧
  (∀ st : Store,
    let rank : Entry → Nat := fun e => match e.img.tag with
      | .interval => 1
      | .waveform => if e.img.capKind = some CapKind.companion then 2 else 3
      | .sag => 4
      | .note => 5
    (∀ e, e ∈ st.candidates ↔ e ∈ st.dir ∧ e.img.sealed = true ∧ e.pins = 0) ∧
      st.candidates.Pairwise fun a b => rank a < rank b ∨ (rank a = rank b ∧ a.img.record ≤ b.img.record)) ∧
  (∀ (st st' : Store) (es : List Entry) (n : Option Nat) (now quota : Nat) (q : CreateRequest), q.tag ≠ .interval →
    st.create now quota q = (st', es, n) →
    es <+: st.candidates ∧ ∀ before last, es = before ++ [last] →
      st.freePages.length + (before.map fun e => e.img.pages.length).sum < q.pages ∨
        (before = [] ∧ ∀ i, i < 1024 → ∃ e ∈ st.dir, e.index = i)) ∧
  ∀ (st st' : Store) (es : List Entry) (r now quota : Nat) (q : CreateRequest), (st.dir.map (·.index)).Nodup →
    st.create now quota q = (st', es, some r) →
    r = st.last + 1 ∧ st'.last = r ∧
      (∃ e ∈ st'.dir, e.img.record = r ∧ e.img.tag = q.tag ∧ e.img.capKind = q.capKind ∧ e.img.sealed = false ∧
        e.img.outcome = .none ∧ e.pins = 0 ∧ e.fails = 0 ∧ e.noteId = q.noteId ∧ e.img.verified = 0 ∧ e.img.created = now ∧
        e.img.pages.length = q.pages ∧ e.img.pages = (st.reclaim es).freePages.take q.pages) ∧
      (∀ e ∈ st.dir, e.img.sealed = false ∨ 0 < e.pins → e ∈ st'.dir) ∧
      (∀ e ∈ es, e ∈ st.dir ∧ e.img.sealed = true ∧ e.pins = 0 ∧ e ∉ st'.dir) ∧ st'.bad = st.bad ∧ st'.nv = st.nv

/-- "When the whole list does not reach the need, no record is reclaimed, and the request is refused" (R128): for a record that
is no INTERVAL, when the FREE pages and those of every candidate together fall short. -/
def Obligations.ShortStoreRefuses : Prop :=
  ∀ (st : Store) (now quota : Nat) (q : CreateRequest), q.tag ≠ .interval →
    st.freePages.length + (st.candidates.map fun e => e.img.pages.length).sum < q.pages → st.create now quota q = (st, [], none)

/-- PAGE_WRITE_COMPLETE with a match, of the first write waiting, to a FILLING record: the bytes stand in the page, no other
byte of the memory changes, and the position that pages verified names next counts as verified, with the entry of a record of
several pages written, which stands at the end of the queue, as that of a seal does, by the model's choice (log 68); a rewrite
of a position already verified leaves pages verified as it is (R132). What follows the page comes next: nothing; the write of
the entry with the later pages left out, and the final header page (R95, R136), both before the rest of the queue, which is the
model's order (log 51); or the seal of the record, whose capture slot becomes FREE (R95, R135). The header page of an opening or
a conversion is kept for a restart that finds the record FILLING (R97; log 50). -/
def Obligations.PageWriteVerified : Prop :=
  ∀ (s : State) (r pos p : Nat) (bs : List Byte) (next : PageNext) (rest : List StoreWrite) (e : Entry),
    s.mode = .running → s.sup.opening = none → s.sup.parkWait = false → s.sup.restartDue = none → s.sup.sealing = none →
    s.store.writes = .page r pos bs next :: rest → s.store.entryOf r = some e → (s.store.dir.map (·.index)).Nodup →
    (∀ x ∈ s.store.dir, x.img.record = r → x = e) → e.img.sealed = false → e.keep = none → e.img.pages[pos]? = some p →
    isDataPage p → (∀ x, s.store.retiring = some x → x.listed = true) →
    let entry : StoreWrite := .sys (.entry e.index (some r)) false
    let own := if e.img.verified = pos ∧ 1 < e.img.pages.length then [entry] else []
    let verified := if e.img.verified = pos then pos + 1 else e.img.verified
    ∃ t e', exec (.pageWriteComplete true) s = .next t ∧ t.store.entryOf r = some e' ∧
      e'.img = { e.img with verified := if next = .seal then e.img.pages.length else verified, sealed := decide (next = .seal) } ∧
      e'.pins = e.pins ∧ e'.fails = e.fails ∧ e'.opened = (if next = .more ∧ pos = 0 then bs else e.opened) ∧
      (next = .more → t.store.writes = rest ++ own ∧ e'.keep = none) ∧
      (∀ h, next = .close h →
        (pos + 1 < e.img.pages.length → t.store.writes = entry :: .page r 0 h .seal :: (rest ++ own) ∧ e'.keep = some (pos + 1)) ∧
        (pos + 1 = e.img.pages.length → t.store.writes = .page r 0 h .seal :: (rest ++ own) ∧ e'.keep = none)) ∧
      (next = .seal → t.store.writes = rest ++ own ++ [entry] ∧ e'.keep = none) ∧
      t.cap = { s.cap with slots := if next = .seal then s.cap.slots.filter (fun sl => sl.record != r) else s.cap.slots } ∧
      (∀ a, t.store.nv.mem.read a = if a / 1024 = p then bs.getD (a % 1024) 0 else s.store.nv.mem.read a) ∧
      t.store.nv.sys = s.store.nv.sys ∧ (∀ x ∈ s.store.dir, x.img.record ≠ r → x ∈ t.store.dir) ∧ t.store.bad = s.store.bad ∧
      t.store.retiring = none ∧ t.ctr = s.ctr ∧ t.line = s.line ∧ t.notes = s.notes ∧ t.hdr = s.hdr ∧ t.clock = s.clock

/-- At every moment FREE, IN USE and BAD pages are 1920 together, and a page is BAD that stands on the BAD list and in no page
list (R121). PAGE_WRITE_COMPLETE with a mismatch puts the page on the working BAD list, whose two copies are written before all
other writes, and stays IN USE until a copy has been verified (R133, R134). After the record's first mismatch the write is
repeated next, before the others; at its second none is repeated, its waiting page writes are not made, and its producer counts
the loss, frees the slot or forgets the number at once (R134, R71, R96, R115, R150). SYSTEM_WRITE_COMPLETE that verifies the first
such copy (or gives up copy B) makes the page BAD and counts it (R121, R133, R142). After a first failure the lowest FREE page
takes its position: the entry is written after what is left of the BAD list's write and before the repeat (R133; the order is log
20, that a page which mismatched keeps its bytes log 31). After a second one, or with no page to be had, the record fails: a
WAVEFORM beyond its header page is sealed STORE ERROR, to keep the positions before this one once its entry has been written
(R136), and any other record is removed with its entry written empty (R134). Given up, copy A alone retires nothing. That the
producer is told at the mismatch and the record fails when its page becomes BAD is the model's reading (log 20). -/
def Obligations.FailedPageIsReplaced : Prop :=
  (∀ st : Store, st.used.Nodup → (∀ p ∈ st.used, isDataPage p) → st.bad.Nodup → (∀ p ∈ st.bad, isDataPage p) →
    st.freePages.length + st.used.length + st.badTotal = 1920 ∧
      ∀ p, isDataPage p → (st.pageState p = .free ↔ p ∈ st.freePages) ∧ (st.pageState p = .bad ↔ p ∈ st.bad ∧ p ∉ st.used) ∧
        ((∃ i, st.pageState p = .inUse i) ↔ p ∈ st.used)) ∧
  (∀ (s : State) (r pos p : Nat) (bs : List Byte) (next : PageNext) (rest : List StoreWrite) (e : Entry),
    s.mode = .running → s.sup.restartDue = none → s.sup.sealing = none → s.store.writes = .page r pos bs next :: rest →
    s.store.entryOf r = some e → e.img.sealed = false → e.img.pages[pos]? = some p → (∀ x, s.store.retiring = some x → x.listed = true) →
    let bad := insertBy id p (s.store.bad.filter (· != p))
    let copies : List StoreWrite := [.sys (.bad false) false, .sys (.bad true) false]
    let listed := fun (second : Bool) (more : List StoreWrite) => { s.store with
      bad := bad, badCount := s.store.badCount + 1,
      dir := s.store.dir.map (fun x => if x.index == e.index then { x with fails := 1 } else x),
      retiring := some ⟨e.index, pos, p, second, false⟩, writes := copies ++ more }
    (e.fails = 0 →
      exec (.pageWriteComplete false) s = .next { s with store := listed false (.page r pos bs next :: rest) }) ∧
    (e.fails ≠ 0 →
      ∃ t, exec (.pageWriteComplete false) s = .next t ∧ t.store = listed true (dropPageWrites r rest) ∧
        t.store.badTotal = s.store.badTotal ∧ (s.store.used.Nodup → t.store.pageState p = .inUse e.index) ∧
        t.line = s.line ∧ t.hdr = s.hdr ∧ t.ev = s.ev ∧ t.rep = s.rep ∧ t.sup = s.sup ∧
        (e.img.tag = .waveform → t.notes = s.notes ∧ t.ctr = s.ctr ∧
          t.cap = { s.cap with slots := s.cap.slots.filter fun sl => sl.record != r }) ∧
        (e.img.tag = .sag → t.cap = s.cap ∧ t.notes = s.notes ∧
          t.ctr = { s.ctr with summariesLost := satAdd s.ctr.summariesLost 1 }) ∧
        (e.img.tag = .interval → t.cap = s.cap ∧ t.notes = s.notes ∧
          t.ctr = { s.ctr with intervalsLost := satAdd s.ctr.intervalsLost 1 }) ∧
        (e.img.tag = .note → t.cap = s.cap ∧ t.ctr = s.ctr ∧
          t.notes = s.notes.map fun n => if n.record = some r then { n with record := none } else n))) ∧
  (∀ (s : State) (rest : List StoreWrite), s.mode = .running → s.sup.restartDue = none → s.sup.sealing = none →
    s.store.writes = .sys (.bad false) true :: rest →
    ∃ t, exec (.systemWriteComplete false) s = .next t ∧ t.store.retiring = s.store.retiring ∧ t.store.dir = s.store.dir ∧
      t.store.bad = s.store.bad ∧ t.store.writes = rest ∧ t.ctr = s.ctr) ∧
  ∀ (s : State) (x : Retiring) (e : Entry) (ok copy retried : Bool) (ws more : List StoreWrite),
    s.mode = .running → s.sup.restartDue = none → s.sup.opening = none → s.sup.parkWait = false → s.sup.sealing = none → s.ctr.ok →
    s.store.writes = .sys (.bad copy) retried :: (ws ++ more) → (ok = true ∨ (copy = true ∧ retried = true)) →
    s.store.retiring = some x → x.listed = false → e ∈ s.store.dir → e.index = x.entry →
    (s.store.dir.map (·.index)).Nodup → e.img.sealed = false → e.img.pages[x.position]? = some x.page → e.img.pages.Nodup →
    x.page ∈ s.store.bad →
    ∃ t, exec (.systemWriteComplete ok) s = .next t ∧ t.store.bad = s.store.bad ∧ t.store.nv.mem = s.store.nv.mem ∧
      (ok = true → t.store.nv = s.store.written (.bad copy)) ∧ t.line = s.line ∧ t.hdr = s.hdr ∧ t.ev = s.ev ∧
      (s.store.used.Nodup → t.store.pageState x.page = .bad) ∧
      (∀ r pos bs next later q, x.second = false → (∀ w ∈ ws, w.isSys = true) → more = .page r pos bs next :: later →
        s.store.freePages.head? = some q →
        t.store.dir = s.store.dir.map (fun y =>
          if y.index == x.entry then { y with img := { y.img with pages := y.img.pages.set x.position q } } else y) ∧
        t.store.writes = ws ++ .sys (.entry x.entry (some e.img.record)) false :: .page r pos bs next :: later ∧
        t.store.retiring = some { x with listed := true } ∧ t.cap = s.cap ∧ t.notes = s.notes ∧
        t.ctr = { s.ctr with badPages := satAdd s.ctr.badPages 1 }) ∧
      (x.second = true ∨ (s.store.freePages = [] ∧ s.store.candidates = []) →
        t.store.retiring = none ∧
        (e.img.tag = .waveform → 0 < x.position →
          t.store.dir = s.store.dir.map (fun y => if y.index == x.entry then
            { y with img := { y.img with sealed := true, outcome := .storeError, pages := y.img.pages.filter (· != x.page) },
                     keep := some x.position } else y) ∧
          t.store.writes = dropPageWrites e.img.record (ws ++ more) ++ [.sys (.entry x.entry (some e.img.record)) false]) ∧
        (e.img.tag ≠ .waveform ∨ x.position = 0 →
          t.store.dir = s.store.dir.filter (fun y => y.index != x.entry) ∧
          t.store.writes = dropPageWrites e.img.record (ws ++ more) ++ [.sys (.entry x.entry none) false]) ∧
        (x.second = true → t.cap = s.cap ∧ t.notes = s.notes ∧ t.ctr = { s.ctr with badPages := satAdd s.ctr.badPages 1 })) ∧
      (x.second = false → s.store.freePages = [] → s.store.candidates = [] →
        (e.img.tag = .waveform → t.cap = { s.cap with slots := s.cap.slots.filter fun sl => sl.record != e.img.record } ∧
          t.notes = s.notes ∧ t.ctr = { s.ctr with badPages := satAdd s.ctr.badPages 1 }) ∧
        (e.img.tag = .sag → t.cap = s.cap ∧ t.notes = s.notes ∧ t.ctr = { s.ctr with
          badPages := satAdd s.ctr.badPages 1, summariesLost := satAdd s.ctr.summariesLost 1 }) ∧
        (e.img.tag = .interval → t.cap = s.cap ∧ t.notes = s.notes ∧ t.ctr = { s.ctr with
          badPages := satAdd s.ctr.badPages 1, intervalsLost := satAdd s.ctr.intervalsLost 1 }) ∧
        (e.img.tag = .note → t.cap = s.cap ∧ t.ctr = { s.ctr with badPages := satAdd s.ctr.badPages 1 } ∧
          t.notes = s.notes.map fun n => if n.record = some e.img.record then { n with record := none } else n))

/-- SYSTEM_WRITE_COMPLETE and HEADER_WRITE_COMPLETE of the first write waiting: a match leaves the item in the system region as
the working copies hold it (log 45), a header as it stood at its handing over (log 54), where it reads back while every other
item reads as before; a first mismatch repeats the write; the data pages are untouched (R12, R120). After a second mismatch the
working copies stay in force, no page becomes BAD, and the item holds its old contents, contents whose check fails, or the new
ones, which is a free choice (R12, R120; log 7). The write of an entry whose page list is shortened releases the pages left out
once it is verified (R136). The 1024 entries stand in pages 5 to 118, nine a page, at addresses of their own (R119); that an
entry has 113 bytes there is the model's choice (log 15). -/
def Obligations.SystemAndHeaderWrites : Prop :=
  (∀ (s : State) (rest : List StoreWrite), s.mode = .running → s.sup.restartDue = none → s.sup.sealing = none →
    (∀ item, s.store.writes = .sys item false :: rest →
      ((∀ x, s.store.retiring = some x → x.listed = true) → (∀ e ∈ s.store.dir, e.keep = none) →
        exec (.systemWriteComplete true) s =
          .next { s with store := { s.store with nv := s.store.written item, writes := rest } }) ∧
      exec (.systemWriteComplete false) s = .next { s with store := { s.store with writes := .sys item true :: rest } }) ∧
    (∀ item, s.store.writes = .sys item true :: rest → (∀ x, s.store.retiring = some x → x.listed = true) →
      (∀ e ∈ s.store.dir, e.keep = none) →
      ∃ nv, exec (.systemWriteComplete false) s =
          .next { s with store := { s.store with nv := nv, writes := rest, draws := s.store.draws + 1 } } ∧
        (nv = s.store.nv ∨ nv = s.store.written item ∨ nv.read item.address = none) ∧ nv.mem = s.store.nv.mem ∧
        ∀ a, a ≠ item.address → nv.read a = s.store.nv.read a) ∧
    (∀ (i r k : Nat) (e : Entry) (retried : Bool), s.store.writes = .sys (.entry i (some r)) retried :: rest →
      (s.store.dir.map (·.index)).Nodup → e ∈ s.store.dir → e.index = i → e.img.record = r → e.keep = some k →
      ∃ t, exec (.systemWriteComplete true) s = .next t ∧
        { e with img := { e.img with pages := e.img.pages.take k }, keep := none } ∈ t.store.dir ∧
        (∀ x ∈ s.store.dir, x.index ≠ i → x ∈ t.store.dir) ∧ t.store.dir.length = s.store.dir.length ∧
        t.store.nv = s.store.nv.put (SysItem.entry i (some r)).address
          (SysContent.entry { e.img with pages := e.img.pages.take k }).cell ∧ t.store.writes = rest ∧ t.cap = s.cap) ∧
    ∀ h, s.store.writes = .header h false :: rest →
      exec (.headerWriteComplete true) s =
        .next { s with store := { s.store with nv := s.store.nv.putHeader h, writes := rest } } ∧
      exec (.headerWriteComplete false) s = .next { s with store := { s.store with writes := .header h true :: rest } }) ∧
  (∀ (s : State) (h : Header) (rest : List StoreWrite), s.mode = .running → s.sup.restartDue = none → s.sup.sealing = none →
    s.store.writes = .header h true :: rest →
    ∃ nv, exec (.headerWriteComplete false) s =
        .next { s with store := { s.store with nv := nv, writes := rest, draws := s.store.draws + 1 } } ∧
      (nv = s.store.nv ∨ nv = s.store.nv.putHeader h ∨ nv.header = none) ∧ nv.mem = s.store.nv.mem ∧
      ∀ a, a ≠ 0 → nv.read a = s.store.nv.read a) ∧
  (∀ (st : Store) (item : SysItem),
    (st.written item).read item.address = st.content item ∧ (st.written item).mem = st.nv.mem ∧
      ∀ a, a ≠ item.address → (st.written item).read a = st.nv.read a) ∧
  (∀ (nv : Region) (h : Header), (nv.putHeader h).header = some h ∧ (nv.putHeader h).mem = nv.mem ∧
    ∀ a, a ≠ 0 → (nv.putHeader h).read a = nv.read a) ∧
  ∀ (i j : Nat) (a b : Option Nat), i < 1024 → j < 1024 →
    5 * 1024 ≤ (SysItem.entry i a).address ∧ (SysItem.entry i a).address + 113 ≤ 119 * 1024 ∧
      (i < j → (SysItem.entry i a).address + 113 ≤ (SysItem.entry j b).address)

/-- RECORD_READ is answered with one RECORD DATA frame to the sender: GONE when no live entry holds the number, FILLING, RANGE
beyond the record, or OK with the chunk's bytes up to the record's end, where positions that are to be released are no part of
the record (R136, R140). That the lower of two live entries with one record number answers is the model's choice (log 46). -/
def Obligations.RecordReadIsAnswered : Prop :=
  ∀ (rx : Rx) (r : BitVec 32) (c : BitVec 16) (s : State), s.takes rx →
    (s.store.entryOf r.toNat = none →
      exec (.recordRead rx r c) s = .next ((s.heard rx).send (.recordData r.toNat c.toNat 2 []) rx.sender.toNat)) ∧
    ∀ e, s.store.entryOf r.toNat = some e →
      let pages := match e.keep with
        | some k => e.img.pages.take k
        | none => e.img.pages
      (e.img.sealed = false →
        exec (.recordRead rx r c) s = .next ((s.heard rx).send (.recordData r.toNat c.toNat 1 []) rx.sender.toNat)) ∧
      (e.img.sealed = true → 1024 * pages.length ≤ 40 * c.toNat →
        exec (.recordRead rx r c) s = .next ((s.heard rx).send (.recordData r.toNat c.toNat 3 []) rx.sender.toNat)) ∧
      (e.img.sealed = true → 40 * c.toNat < 1024 * pages.length →
        ∃ bs, exec (.recordRead rx r c) s = .next ((s.heard rx).send (.recordData r.toNat c.toNat 0 bs) rx.sender.toNat) ∧
          bs.length = min 40 (1024 * pages.length - 40 * c.toNat) ∧
          ∀ i, i < bs.length → bs[i]? = some (s.store.nv.mem.read
            (pages.getD ((40 * c.toNat + i) / 1024) 0 * 1024 + (40 * c.toNat + i) % 1024)))

/-! ## Notes -/

/-- NOTE is ignored in IDLE, with id 0, of an unknown kind, and as a repeat of an id known: the roster is refreshed and nothing
else changes (R144, R145). A SITE note or an OBSERVATION with a new id joins the table at its end, an OBSERVATION with its span
end, its record is asked for, and the record number granted stands in it (R146, R147, R150). A fifth SITE entry replaces the
oldest SITE entry; in a full table the oldest EXPIRED entry gives way, or else the oldest ACTIVE OBSERVATION, which counts as
expired early (R146, R148). Line, clock, header, jobs and pins are unchanged but for the roster. -/
def Obligations.NotesAreTakenOrIgnored : Prop :=
  ∀ (rx : Rx) (f : NoteFrame) (s : State), s.takes rx → f.WellFormed →
    ((s.hdr.state = .idle ∨ f.id = 0 ∨ f.kind = 0 ∨ 3 < f.kind.toNat ∨ (∃ e ∈ s.notes, e.id = f.id.toNat) ∨
        (∃ e ∈ s.notes, e.lastCorr = some f.id.toNat) ∨ f.id.toNat ∈ s.store.noteIds) →
      exec (.note rx f) s = .next (s.heard rx)) ∧
    (s.hdr.state ≠ .idle → f.id ≠ 0 → f.kind = 1 ∨ f.kind = 2 → s.knownNote f.id.toNat = false →
      let site := f.kind == 1
      let sites := (s.notes.filter (·.site)).length
      let joins := s.notes.length < 32 ∧ (site = true → sites < 4)
      let full := 32 ≤ s.notes.length ∧ (site = true → sites < 4)
      ∃ t new, exec (.note rx f) s = .next t ∧
        new = ⟨f.id.toNat, site, keepText f.text, s.clock.survey,
          if f.kind = 1 ∨ f.span = 0 then none else some (min (s.clock.survey + 60000 * min f.span.toNat 240) 4294967295),
          false, none, (s.create ⟨.note, none, some f.id.toNat, 1⟩).2⟩ ∧
        (joins → t.notes = s.notes ++ [new]) ∧
        (∀ before gone after, s.notes = before ++ gone :: after →
          (site = true → 4 ≤ sites → gone.site = true → (∀ x ∈ before, x.site = false) → t.notes = before ++ after ++ [new]) ∧
          (full → gone.expired = true → (∀ x ∈ before, x.expired = false) → t.notes = before ++ after ++ [new]) ∧
          (full → (∀ x ∈ s.notes, x.expired = false) → gone.site = false → (∀ x ∈ before, x.site = true) →
            t.notes = before ++ after ++ [new] ∧ t.ctr.notesExpiredEarly = satAdd s.ctr.notesExpiredEarly 1)) ∧
        t.line = (s.heard rx).line ∧ t.clock = s.clock ∧ t.hdr = s.hdr ∧ t.rep = s.rep ∧ t.prn = s.prn ∧ t.pins = s.pins ∧
        t.store.nv = s.store.nv ∧ t.ev = s.ev ∧ t.cap = s.cap)

/-- A CORRECTION changes its target alone: its text, its last correction, and, of an ACTIVE OBSERVATION, its span; an EXPIRED
entry never becomes ACTIVE again (R149). A NOTE frame of kind CORRECTION with a new id changes the table in this way and no
other, whether or not it finds its target, and its record is asked for: the page is handed over when a number is granted, which
goes into no entry, and nothing is stored on a refusal (R149, R150). -/
def Obligations.CorrectionChangesItsTarget : Prop :=
  (∀ (rx : Rx) (f : NoteFrame) (s : State), s.takes rx → f.WellFormed → s.hdr.state ≠ .idle → f.id ≠ 0 → f.kind = 3 →
    s.knownNote f.id.toNat = false → s.ctr.ok →
    let n : Note := ⟨f.id.toNat, 3, min f.span.toNat 240, f.corrects.toNat, s.clock.survey, keepText f.text⟩
    let made := s.create ⟨.note, none, some f.id.toNat, 1⟩
    ∃ t, exec (.note rx f) s = .next t ∧ t.notes = (applyNote s.notes n).1 ∧
      ((∀ e ∈ s.notes, e.id ≠ f.corrects.toNat) → t.notes = s.notes) ∧
      (∀ r, made.2 = some r → t.store = { made.1.store with
        writes := made.1.store.writes ++ [.page r 0 (noteBytes n rx.addressee.toNat s.provisional) .seal] }) ∧
      (made.2 = none → t.store = made.1.store) ∧ t.ctr = made.1.ctr ∧ t.line = (s.heard rx).line ∧ t.clock = s.clock ∧
      t.hdr = s.hdr ∧ t.rep = s.rep ∧ t.prn = s.prn ∧ t.pins = s.pins ∧ t.ev = s.ev ∧ t.cap = s.cap ∧ t.har = s.har) ∧
  ∀ (t : List NoteEntry) (n : Note) (i : Nat) (e : NoteEntry), n.kind = 3 → t[i]? = some e →
    ∃ e', (applyNote t n).1[i]? = some e' ∧ (applyNote t n).1.length = t.length ∧ (applyNote t n).2 = 0 ∧
      (e.id ≠ n.corrects → e' = e) ∧
      (e.id = n.corrects → e'.text = n.text ∧ e'.lastCorr = some n.id ∧ e'.id = e.id ∧ e'.site = e.site ∧ e'.received = e.received ∧
        e'.record = e.record ∧ (e.expired = true → e'.expired = true) ∧
        (e.site = true ∨ e.expired = true → e'.spanEnd = e.spanEnd) ∧
        (e.site = false → e.expired = false → n.span = 0 → e'.expired = true ∧ e'.spanEnd = some n.received) ∧
        (e.site = false → e.expired = false → n.span ≠ 0 →
          e'.expired = false ∧ e'.spanEnd = some (min (n.received + 60000 * n.span) 4294967295)))

/-- NOTE_EXPIRY: survey time reaches the span end of an ACTIVE OBSERVATION, which becomes EXPIRED with its span end as it was;
the ids of the table and their order stay (R151). That time passes to the deadline is the model's choice (log 4). -/
def Obligations.ObservationExpires : Prop :=
  ∀ (s : State) (id : BitVec 16) (e : NoteEntry) (x : Nat), s.surveyRuns = true → x ≤ 4294967295 →
    s.notes.find? (fun n => n.id == id.toNat && !n.site && !n.expired) = some e → e.spanEnd = some x →
    ∃ t, exec (.noteExpiry id) s = .next t ∧ x ≤ t.clock.survey ∧ { e with expired := true } ∈ t.notes ∧
      t.notes.map (·.id) = s.notes.map (·.id) ∧ t.notes.map (·.spanEnd) = s.notes.map (·.spanEnd) ∧ t.line = s.line ∧
      t.hdr = s.hdr ∧ t.store = s.store ∧ t.rep = s.rep ∧ t.ctr = s.ctr

/-! ## Print requests and origin jobs -/

/-- PRINT_REQUEST of an existing kind is answered NO SURVEY in IDLE, else BUSY with both entries in use, else NO PRINTER when
none can be chosen, and a refusal changes nothing else; one of no existing kind is ignored (R155). Accepted with another
station's printer, the job stands in ASKED under its number with its record list pinned, the answer goes out before the ask, and
the answer timer runs for 1000 ms; clock, header, notes, printer service and counters are unchanged (R155 to R160). The printer
chosen is the lowest-numbered station, this one included, that has one, by its strap or by a fresh beacon (R157). The record
list holds the SEALED records of the kind's tag, the lowest 64 above the watermark, the lowest 64 notes or the newest intervals
up to the count, ascending, and the more count those left out (R158). Beside another job the free entry is taken and its number
passed over (R156). At the own printer the ask is handed over and answered at once: a full queue ends the job REFUSED, an entry
that waits makes it QUEUED without timers, and a free service takes it to SENDING with banner and title in the buffer and the
next line pending, and no frame but the answer is sent (R166). That NO SURVEY in IDLE goes for a SURVEY SHEET too, which R11 and
R172 would have printed there, is the model's choice between the rules (log 59). The class byte of a ROUTINE ask and the number
of a station without one are free values (log 14, log 5). -/
def Obligations.PrintRequestIsAnswered : Prop :=
  (∀ s : State,
    let prints := fun e : RosterEntry => e.fresh s.clock.now = true ∧ ∃ b, e.beacon = some b ∧ b.flags.testBit 1 = true
    (s.printerChoice = none ↔ s.straps.printer = false ∧ ∀ e ∈ s.line.roster, ¬prints e) ∧
    (s.line.roster.Pairwise (fun a b => a.station < b.station) →
      (∀ n, s.printerChoice = some (.station n) → (∃ e ∈ s.line.roster, e.station = n ∧ prints e) ∧
        (∀ e ∈ s.line.roster, prints e → n ≤ e.station) ∧ (s.straps.printer = true → n < s.stationNo)) ∧
      (s.printerChoice = some .own → s.straps.printer = true ∧ ∀ e ∈ s.line.roster, prints e → s.stationNo ≤ e.station))) ∧
  ∀ (rx : Rx) (f : PrintRequestFrame) (s : State), s.takes rx →
    (f.kind = 0 ∨ 4 < f.kind.toNat → exec (.printRequest rx f) s = .next (s.heard rx)) ∧
    (1 ≤ f.kind.toNat → f.kind.toNat ≤ 4 →
      (s.hdr.state = .idle → exec (.printRequest rx f) s = .next ((s.heard rx).answer 4 3 0 false rx.sender.toNat)) ∧
      (s.hdr.state ≠ .idle → 2 ≤ s.rep.jobs.length →
        exec (.printRequest rx f) s = .next ((s.heard rx).answer 4 4 0 false rx.sender.toNat)) ∧
      (s.hdr.state ≠ .idle → s.rep.jobs.length < 2 → (s.heard rx).printerChoice = none →
        exec (.printRequest rx f) s = .next ((s.heard rx).answer 4 5 0 false rx.sender.toNat))) ∧
    (∀ (k : ReportKind) (n : Nat) (o : Job), ReportKind.ofCode f.kind.toNat = some k → s.hdr.state ≠ .idle → s.rep.jobs = [o] →
      o.entry < 2 → s.rep.lastJob ≤ 255 → (s.heard rx).printerChoice = some (.station n) →
      let following := s.rep.lastJob % 255 + 1
      ∃ t j, exec (.printRequest rx f) s = .next t ∧ j ∈ t.rep.jobs ∧ o ∈ t.rep.jobs ∧ t.rep.jobs.length = 2 ∧
        j.entry = 1 - o.entry ∧ j.number = (if o.number = following then following % 255 + 1 else following) ∧
        t.rep.lastJob = j.number ∧ j.kind = k ∧ j.printer = .station n ∧ j.state = .asked) ∧
    (∀ k : ReportKind, ReportKind.ofCode f.kind.toNat = some k → s.hdr.state ≠ .idle → s.rep.jobs = [] → s.rep.lastJob ≤ 255 →
      (s.heard rx).printerChoice = some .own → s.prn.entryOf .own (s.rep.lastJob % 255 + 1) = none →
      let number := s.rep.lastJob % 255 + 1
      let answered := (s.heard rx).answer 4 0 number false rx.sender.toNat
      (8 ≤ s.prn.queue.length → ∃ t, exec (.printRequest rx f) s = .next t ∧ t.rep = ⟨[], number⟩ ∧ t.store = s.store ∧
        t.ctr = { s.ctr with jobsRefused := satAdd s.ctr.jobsRefused 1 } ∧ t.line = answered.line ∧ t.prn = s.prn) ∧
      (s.prn.queue.length < 8 → s.prn.state ≠ .idle ∨ s.pins.paperOut = true →
        ∃ t j, exec (.printRequest rx f) s = .next t ∧ t.rep = ⟨[j], number⟩ ∧ j.state = .queued ∧ j.printer = .own ∧ j.kind = k ∧
          j.answerTimer = none ∧ j.refreshTimer = none ∧ t.line = answered.line ∧ t.ctr = s.ctr ∧
          t.prn = { s.prn with queue := s.prn.queue ++ [⟨.own, number, k, f.cls == 1, s.clock.now, false⟩] }) ∧
      (k = .surveySheet → s.prn.state = .idle → s.pins.paperOut = false → s.prn.queue = [] → s.prn.buffer = [] →
        (∀ n ∈ s.notes, n.site = false) →
        let title := txt "SURVEY SHEET" ++ txt " STN" ++ num 2 s.stationNo ++ txt " SVY" ++ num 5 s.hdr.number
        let line := txt "STATE " ++ s.hdr.state.name
        ∃ t j, exec (.printRequest rx f) s = .next t ∧ t.rep = ⟨[j], number⟩ ∧ j.state = .sending ∧
          j.current = some ⟨2, some line, 1⟩ ∧ j.answerTimer = none ∧ t.prn.state = .printing ∧
          t.prn.buffer = [txt "== JOB " ++ num 2 s.stationNo ++ txt "/" ++ num 3 number ++ txt " SURVEY SHEET", title] ∧
          t.prn.waiting = some (2, line) ∧ t.prn.lastTaken = 1 ∧ t.prn.lines = 1 ∧ t.prn.inactivity = some (s.clock.now + ms 5000) ∧
          t.prn.goTimer = none ∧ t.line = answered.line ∧ t.ctr = s.ctr)) ∧
    ∀ (k : ReportKind) (n : Nat), ReportKind.ofCode f.kind.toNat = some k → s.hdr.state ≠ .idle → s.rep.jobs = [] →
      s.rep.lastJob ≤ 255 → (s.heard rx).printerChoice = some (.station n) →
      ∃ t j, exec (.printRequest rx f) s = .next t ∧ t.rep.jobs = [j] ∧ t.rep.lastJob = j.number ∧
        j.number = s.rep.lastJob % 255 + 1 ∧ j.kind = k ∧ (j.urgent = true ↔ f.cls = 1) ∧ j.printer = .station n ∧
        j.state = .asked ∧ j.nextSeq = 1 ∧ j.current = none ∧ j.heldTicks = 0 ∧ j.askSends = 1 ∧
        j.answerTimer = some (s.clock.now + ms 1000) ∧ j.refreshTimer = none ∧ j.holdTimer = none ∧
        (k = .harmonicSummary → j.records.length ≤ 24 ∧ j.more = 0) ∧ j.records.length ≤ 64 ∧
        j.records.Pairwise (fun a b => a ≤ b) ∧ (∀ r ∈ j.records, s.store.canPin r = true) ∧
        ((s.store.dir.map (·.img.record)).Nodup →
          let eligible := fun r : Nat => ∃ e ∈ s.store.dir, e.img.record = r ∧ e.img.sealed = true ∧ match k with
            | .sagList => e.img.tag = .sag ∧ s.hdr.watermark < r
            | .harmonicSummary => e.img.tag = .interval
            | .noteList => e.img.tag = .note
            | .surveySheet => False
          (∀ r ∈ j.records, eligible r) ∧
          (k = .sagList ∨ k = .noteList →
            (∀ r, eligible r → r ∉ j.records → j.records.length = 64 ∧ ∀ x ∈ j.records, x < r) ∧
            ∀ l : List Nat, l.Nodup → (∀ r, r ∈ l ↔ eligible r) → j.more = min (l.length - 64) 65535) ∧
          (k = .harmonicSummary → ∀ r, eligible r → r ∉ j.records →
            j.records.length = max 1 (min 24 f.count.toNat) ∧ ∀ x ∈ j.records, r < x)) ∧
        t.store = j.records.foldl Store.pin s.store ∧
        t.line = (((s.heard rx).answer 4 0 j.number false rx.sender.toNat).send
          (.printAsk j.number k.code (classByte j.urgent)) n).line ∧
        t.clock = s.clock ∧ t.hdr = s.hdr ∧ t.notes = s.notes ∧ t.prn = s.prn ∧ t.ctr = s.ctr ∧ t.pins = s.pins

/-- ASK_ANSWER_TIMER of a job at another station: below three sends the ask is sent again, an earlier copy being withdrawn, and
the timer restarts; after three the job ends ABANDONED without a DROP (R160, R164, R179, R186). The copies withdrawn are the
asks of this job number alone: one that waits leaves the queue, one under transmission is not tried again (R186). REFRESH_TIMER:
the ask of a QUEUED job is sent once more and the timer restarts for 10,000 ms (R161); that no earlier copy is withdrawn there
is the model's reading (log 35). That time passes to the deadline is the model's choice (log 4). The class byte of a ROUTINE ask
is a free value (log 14). -/
def Obligations.AsksAreRepeated : Prop :=
  (∀ (number : Nat) (l : Line),
    (∀ p, isAskOf number p = true ↔ ∃ kind cls, p = .printAsk number kind cls) ∧
      (∀ f ∈ l.queue, (∀ kind cls, f.payload ≠ .printAsk number kind cls) → f ∈ (l.withdraw (isAskOf number)).queue) ∧
      (∀ f ∈ l.queue, f.sending = true → isAskOf number f.payload = true →
        { f with noRetry := true } ∈ (l.withdraw (isAskOf number)).queue) ∧
      ∀ f ∈ (l.withdraw (isAskOf number)).queue, isAskOf number f.payload = true → f.sending = true ∧ f.noRetry = true) ∧
  ∀ (s : State) (e : Fin 2) (j : Job) (n d : Nat), s.mode = .running → s.jobAt e.val = some j → j.printer = .station n →
    (j.state = .asked → j.answerTimer = some d → j.askSends < 3 → exec (.askAnswerTimer e) s = .next
      ((State.setJob { s.passTo d with line := s.line.withdraw (isAskOf j.number) }
        { j with askSends := j.askSends + 1, answerTimer := some (max s.clock.now d + ms 1000) }).send
          (.printAsk j.number j.kind.code (classByte j.urgent)) n)) ∧
    (j.state = .asked → j.answerTimer = some d → 3 ≤ j.askSends →
      ∃ t, exec (.askAnswerTimer e) s = .next t ∧ (∀ x ∈ t.rep.jobs, x.entry ≠ e.val) ∧
        t.store = j.records.foldl Store.unpin s.store ∧ t.ctr = { s.ctr with jobsAbandoned := satAdd s.ctr.jobsAbandoned 1 } ∧
        t.line = s.line ∧ t.hdr = s.hdr ∧ t.prn = s.prn) ∧
    (j.state = .queued → j.refreshTimer = some d →
      exec (.refreshTimer e) s = .next ((State.setJob (s.passTo d)
        { j with refreshTimer := some (max s.clock.now d + ms 10000) }).send
          (.printAsk j.number j.kind.code (classByte j.urgent)) n))

/-- BLOCK_ANSWER_TIMER and HOLD_TIMER of a job at another station send the current block again, withdrawing a copy that waits:
with the next send count, or after holding with send count 1 (R162, R163, R186). A block whose third send is not answered, and a
job whose holding time reaches 600,000 ms, end the job ABANDONED with a DROP to its printer; its pins are released, and the
watermark stays (R162 to R164, R179). HOLD_TIMER of a job at the own printer offers the block again, and with the paper still
out it is held for another 2000 ms, without a frame (R163, R166, R176). That time passes to the deadline is the model's choice
(log 4). -/
def Obligations.BlocksAreRepeatedThenAbandoned : Prop :=
  (∀ (s : State) (e : Fin 2) (j : Job) (d : Nat) (b : CurBlock) (p : QueueEntry), s.mode = .running → s.jobAt e.val = some j →
    j.state = .sending → j.printer = .own → s.jobOf .own j.number = some j → j.holdTimer = some d → j.current = some b →
    s.straps.printer = true → s.pins.paperOut = true → s.prn.printing = some p → p.origin = .own → p.job = j.number →
    b.seq = s.prn.lastTaken + 1 → s.prn.waiting = none →
    exec (.holdTimer e) s = .next (State.setJob { s.passTo d with
        line := s.line.withdraw (isBlockOf j.number b.seq)
        prn := { s.prn with inactivity := some (max s.clock.now d + ms 5000), goTimer := none } }
      { j with current := some { b with sends := 0 }, answerTimer := none, holdTimer := some (max s.clock.now d + ms 2000),
               heldSince := some (j.heldSince.getD (max s.clock.now d)) })) ∧
  ∀ (s : State) (e : Fin 2) (j : Job) (n d : Nat), s.mode = .running → s.jobAt e.val = some j → j.state = .sending →
    j.printer = .station n →
    (∀ b : CurBlock, j.current = some b →
      (j.answerTimer = some d → b.sends < 3 → exec (.blockAnswerTimer e) s = .next
        ((State.setJob { s.passTo d with line := s.line.withdraw (isBlockOf j.number b.seq) }
          { j with current := some { b with sends := b.sends + 1 }, answerTimer := some (max s.clock.now d + ms 500),
                   holdTimer := none }).send
            (.printBlock j.number b.seq (if b.line.isNone then 1 else 0) (b.line.getD [])) n)) ∧
      (j.holdTimer = some d → exec (.holdTimer e) s = .next
        ((State.setJob { s.passTo d with line := s.line.withdraw (isBlockOf j.number b.seq) }
          { j with current := some { b with sends := 1 }, answerTimer := some (max s.clock.now d + ms 500),
                   holdTimer := none }).send
            (.printBlock j.number b.seq (if b.line.isNone then 1 else 0) (b.line.getD [])) n)) ∧
      (j.answerTimer = some d → 3 ≤ b.sends →
        ∃ t, exec (.blockAnswerTimer e) s = .next t ∧ (∀ x ∈ t.rep.jobs, x.entry ≠ e.val) ∧
          t.store = j.records.foldl Store.unpin s.store ∧ t.ctr = { s.ctr with jobsAbandoned := satAdd s.ctr.jobsAbandoned 1 } ∧
          t.line = ((s.passTo d).send (.drop j.number) n).line ∧ t.hdr = s.hdr ∧ t.prn = s.prn)) ∧
    (j.heldSince = some d → ∃ t, exec (.holdingLimit e) s = .next t ∧ (∀ x ∈ t.rep.jobs, x.entry ≠ e.val) ∧
      t.clock.now = max s.clock.now (d + (ms 600000 - j.heldTicks)) ∧ t.store = j.records.foldl Store.unpin s.store ∧
      t.ctr = { s.ctr with jobsAbandoned := satAdd s.ctr.jobsAbandoned 1 } ∧
      t.line = ((s.passTo (d + (ms 600000 - j.heldTicks))).send (.drop j.number) n).line ∧ t.hdr = s.hdr ∧ t.prn = s.prn)

/-- Of the frames by which a job's printer answers: QUEUED takes an ASKED job to QUEUED with the refresh timer running for
10,000 ms; REFUSED ends an ASKED or QUEUED job REFUSED; GO takes such a job of another station's printer to SENDING, with its
first block, the title line under sequence 1, sent once and answered within 500 ms; all three are ignored in SENDING (R160 to
R162, R164, R167). HELD for the current block puts it into holding: the answer timer stops, its send count is 0, the hold timer
runs for 2000 ms, and the holding time accrues from the first HELD; with another sequence it is ignored (R162, R163). The number
that a station without one prints is a free value (log 5). -/
def Obligations.AnswersOfThePrinter : Prop :=
  ∀ (rx : Rx) (n r : BitVec 8) (s : State) (j : Job), s.takes rx → s.jobOf (.station rx.sender.toNat) n.toNat = some j →
    (j.state = .asked → exec (.queued rx n) s = .next (State.setJob (s.heard rx)
      { j with state := .queued, answerTimer := none, refreshTimer := some (s.clock.now + ms 10000) })) ∧
    (j.state ≠ .asked → exec (.queued rx n) s = .next (s.heard rx)) ∧
    (j.state ≠ .sending → exec (.refused rx n r) s = .next { s.heard rx with
      store := j.records.foldl Store.unpin s.store, ctr := { s.ctr with jobsRefused := satAdd s.ctr.jobsRefused 1 },
      rep := { s.rep with jobs := s.rep.jobs.filter fun x => x.entry != j.entry } }) ∧
    (j.state = .sending → exec (.refused rx n r) s = .next (s.heard rx) ∧ exec (.go rx n) s = .next (s.heard rx)) ∧
    (j.state ≠ .sending → j.nextSeq = 1 → j.cursor = ⟨0, 0, 0, 0⟩ →
      let title := j.kind.name ++ txt " STN" ++ num 2 s.stationNo ++ txt " SVY" ++ num 5 s.hdr.number
      exec (.go rx n) s = .next ((State.setJob (s.heard rx)
        { j with state := .sending, refreshTimer := none, holdTimer := none, nextSeq := 2, cursor := ⟨0, 1, 0, 1⟩,
                 current := some ⟨1, some title, 1⟩, answerTimer := some (s.clock.now + ms 500) }).send
          (.printBlock j.number 1 0 title) rx.sender.toNat)) ∧
    ∀ (k : BitVec 16) (b : CurBlock), j.state = .sending → j.current = some b →
      exec (.held rx n k) s = .next (if b.seq = k.toNat then State.setJob (s.heard rx)
        { j with current := some { b with sends := 0 }, answerTimer := none, holdTimer := some (s.clock.now + ms 2000),
                 heldSince := some (j.heldSince.getD s.clock.now) } else s.heard rx)

/-- TAKEN for a line sends the next block: the next line of the report, or the END mark when there is none, with the next
sequence and send count 1, and ends any holding (R162, R163, R167). TAKEN for the END mark ends the job DONE: the pins of its
records are released, a SAG LIST's last record raises the watermark and the header is written when it changed, and jobs
completed rises; a TAKEN for another sequence is ignored (R162, R164, R13, R131). -/
def Obligations.TakenGoesOnOrEndsTheJob : Prop :=
  ∀ (rx : Rx) (n : BitVec 8) (k : BitVec 16) (s : State) (j : Job) (b : CurBlock), s.takes rx →
    s.jobOf (.station rx.sender.toNat) n.toNat = some j → j.state = .sending → j.current = some b →
    (b.seq ≠ k.toNat → exec (.taken rx n k) s = .next (s.heard rx)) ∧
    (b.seq = k.toNat → b.line = none →
      ∃ t, exec (.taken rx n k) s = .next t ∧ t.rep = { s.rep with jobs := s.rep.jobs.filter fun x => x.entry != j.entry } ∧
        t.ctr = { s.ctr with jobsCompleted := satAdd s.ctr.jobsCompleted 1 } ∧ t.line = (s.heard rx).line ∧ t.clock = s.clock ∧
        t.prn = s.prn ∧ t.store.dir = (j.records.foldl Store.unpin s.store).dir ∧
        (∀ r, j.kind = .sagList → j.records.getLast? = some r → s.hdr.watermark < r →
          t.hdr = { s.hdr with watermark := r, checkpoint := s.clock.survey } ∧
          t.store.writes = s.store.writes ++ [.header t.hdr false]) ∧
        ((∀ r, j.kind = .sagList → j.records.getLast? = some r → r ≤ s.hdr.watermark) →
          t.hdr = s.hdr ∧ t.store = j.records.foldl Store.unpin s.store)) ∧
    (b.seq = k.toNat → b.line ≠ none →
      let next := (s.heard rx).nextLine j 12 j.cursor
      let line := next.map (·.1)
      exec (.taken rx n k) s = .next ((State.setJob (s.heard rx)
        { j with current := some ⟨j.nextSeq, line, 1⟩, nextSeq := j.nextSeq + 1, cursor := (next.map (·.2)).getD j.cursor,
                 heldTicks := s.heldTotal j, heldSince := none, holdTimer := none,
                 answerTimer := some (s.clock.now + ms 500) }).send
          (.printBlock j.number j.nextSeq (if line.isNone then 1 else 0) (line.getD [])) rx.sender.toNat))

/-- "A frame of the exchange that names a job this station does not hold, or names it from a station other than its printer, is
an unknown-job frame": a GO, TAKEN or HELD is answered with a DROP naming that number to its sender, and QUEUED and REFUSED are
ignored (R165). -/
def Obligations.UnknownJobFrames : Prop :=
  ∀ (rx : Rx) (n r : BitVec 8) (k : BitVec 16) (s : State), s.takes rx → s.jobOf (.station rx.sender.toNat) n.toNat = none →
    exec (.go rx n) s = .next ((s.heard rx).send (.drop n.toNat) rx.sender.toNat) ∧
    exec (.taken rx n k) s = .next ((s.heard rx).send (.drop n.toNat) rx.sender.toNat) ∧
    exec (.held rx n k) s = .next ((s.heard rx).send (.drop n.toNat) rx.sender.toNat) ∧
    exec (.queued rx n) s = .next (s.heard rx) ∧ exec (.refused rx n r) s = .next (s.heard rx) ∧
    (s.serviceWorks = false ∨ s.prn.entryOf (.station rx.sender.toNat) n.toNat = none →
      exec (.drop rx n) s = .next (s.heard rx))

/-- DROP of a job's printer ends the job ABANDONED, and no DROP goes back; DROP of an origin removes its WAITING entry, and no
frame is sent (R160 to R164, R178). DROP of the PRINTING job ends it with the INCOMPLETE trailer, which enters a buffer with
room or waits behind its lines: the entry leaves the queue, the timers stop, a pending block is discarded, and the service is
FINISHING, with no frame sent (R177). -/
def Obligations.DropEndsAtBothSides : Prop :=
  ∀ (rx : Rx) (n : BitVec 8) (s : State), s.takes rx →
    (∀ j, s.jobOf (.station rx.sender.toNat) n.toNat = some j → s.prn.entryOf (.station rx.sender.toNat) n.toNat = none →
      exec (.drop rx n) s = .next { s.heard rx with
        store := j.records.foldl Store.unpin s.store, ctr := { s.ctr with jobsAbandoned := satAdd s.ctr.jobsAbandoned 1 },
        rep := { s.rep with jobs := s.rep.jobs.filter fun x => x.entry != j.entry } }) ∧
    ∀ e, s.jobOf (.station rx.sender.toNat) n.toNat = none → s.serviceWorks = true →
      s.prn.entryOf (.station rx.sender.toNat) n.toNat = some e →
      let others := s.prn.queue.filter fun x => !(x.origin == .station rx.sender.toNat && x.job == n.toNat)
      let trailer := txt "** INCOMPLETE " ++ num 2 rx.sender.toNat ++ txt "/" ++ num 3 n.toNat ++ txt " LINES" ++ num 5 s.prn.lines
      (e.printing = false → exec (.drop rx n) s = .next { s.heard rx with prn := { s.prn with queue := others } }) ∧
      (e.printing = true → exec (.drop rx n) s = .next { s.heard rx with prn := { s.prn with
        state := .finishing, queue := others, waiting := none, inactivity := none, goTimer := none,
        buffer := if s.prn.buffer.length < 2 then s.prn.buffer ++ [trailer] else s.prn.buffer,
        trailer := if s.prn.buffer.length < 2 then none else some trailer } })

/-! ## The printer service -/

/-- PRINT_ASK of an existing kind: a matching WAITING entry is answered QUEUED again, a matching PRINTING one GO again, a
PRINTING one of another kind or class DROP; with no entry and 8 in the queue the answer is REFUSED FULL, and with room a WAITING
entry joins at the end and is answered QUEUED. A WAITING entry of another kind or class is removed, and the ask is taken as a
new one. An IDLE service with the paper PRESENT makes its choice at once, after the QUEUED: the chosen entry is PRINTING, its
banner stands in the buffer, the timers run and GO is sent (R174, R175). -/
def Obligations.PrintAskIsAnswered : Prop :=
  ∀ (rx : Rx) (f : PrintAskFrame) (s : State) (k : ReportKind), s.takes rx → s.serviceWorks = true →
    ReportKind.ofCode f.kind.toNat = some k →
    (∀ e, s.prn.entryOf (.station rx.sender.toNat) f.job.toNat = some e → e.kind = k → e.urgent = (f.cls == 1) →
      exec (.printAsk rx f) s = .next ((s.heard rx).send (if e.printing then .go f.job.toNat else .queued f.job.toNat)
        rx.sender.toNat)) ∧
    (∀ e, s.prn.entryOf (.station rx.sender.toNat) f.job.toNat = some e → ¬(e.kind = k ∧ e.urgent = (f.cls == 1)) →
      e.printing = true → exec (.printAsk rx f) s = .next ((s.heard rx).send (.drop f.job.toNat) rx.sender.toNat)) ∧
    (s.prn.entryOf (.station rx.sender.toNat) f.job.toNat = none → 8 ≤ s.prn.queue.length →
      exec (.printAsk rx f) s = .next ((s.heard rx).send (.refused f.job.toNat 1) rx.sender.toNat)) ∧
    (s.prn.entryOf (.station rx.sender.toNat) f.job.toNat = none → s.prn.queue.length < 8 →
      s.prn.state ≠ .idle ∨ s.pins.paperOut = true →
      exec (.printAsk rx f) s = .next (State.send { s.heard rx with prn := { s.prn with queue := s.prn.queue ++
        [⟨.station rx.sender.toNat, f.job.toNat, k, f.cls == 1, s.clock.now, false⟩] } } (.queued f.job.toNat) rx.sender.toNat)) ∧
    ((∀ e, s.prn.entryOf (.station rx.sender.toNat) f.job.toNat = some e → e.printing = false ∧
        ¬(e.kind = k ∧ e.urgent = (f.cls == 1))) →
      let others := s.prn.queue.filter fun x => !(x.origin == .station rx.sender.toNat && x.job == f.job.toNat)
      let new : QueueEntry := ⟨.station rx.sender.toNat, f.job.toNat, k, f.cls == 1, s.clock.now, false⟩
      let p := { s.prn with queue := others ++ [new] }
      let queued := State.send { s.heard rx with prn := p } (.queued f.job.toNat) rx.sender.toNat
      others.length < 8 →
      (s.prn.state ≠ .idle ∨ s.pins.paperOut = true → exec (.printAsk rx f) s = .next queued) ∧
      (s.prn.state = .idle → s.pins.paperOut = false →
        (others = [] → p.choice s.clock.now = some new) ∧
        ∀ (e : QueueEntry) (n : Nat), p.choice s.clock.now = some e → e.origin = .station n →
          exec (.printAsk rx f) s = .next (State.send { queued with prn := { p with
            state := .printing
            queue := p.queue.map fun x => if x.origin == e.origin && x.job == e.job then { x with printing := true } else x
            buffer := s.prn.buffer ++ [txt "== JOB " ++ num 2 n ++ txt "/" ++ num 3 e.job ++ txt " " ++ e.kind.name]
            lastTaken := 0, lines := 0, waiting := none, grants := pushBounded 3 s.prn.grants e.origin
            inactivity := some (s.clock.now + ms 5000), goTimer := some (s.clock.now + ms 1000) } } (.go e.job) n)))

/-- The job chosen waits; with 3 grants to one origin it is of another when another waits; it is URGENT by class or by its
120,000 ms when any left to choose from is; and no entry before it in the queue has those; none is chosen only when none waits
(R175). -/
def Obligations.ChoiceFollowsItsOrder : Prop :=
  (∀ (p : Printer) (now : Nat), p.choice now = none → ∀ e ∈ p.queue, e.printing = true) ∧
  ∀ (p : Printer) (now : Nat) (e : QueueEntry), p.choice now = some e →
    e ∈ p.queue ∧ e.printing = false ∧
      (∀ o, p.grants = [o, o, o] → (∃ x ∈ p.queue, x.printing = false ∧ x.origin ≠ o) → e.origin ≠ o) ∧
      (∀ x ∈ p.queue, x.printing = false → x.effective now = true →
        (∀ o, p.grants = [o, o, o] → (∃ y ∈ p.queue, y.printing = false ∧ y.origin ≠ o) → x.origin ≠ o) →
        e.effective now = true) ∧
      ∃ before after, p.queue = before ++ e :: after ∧
        ∀ x ∈ before, x.printing = false → x.effective now = e.effective now →
          ∃ o, p.grants = [o, o, o] ∧ (∃ y ∈ p.queue, y.printing = false ∧ y.origin ≠ o) ∧ x.origin = o

/-- PAPER_OUT and READY follow their inputs: with no block pending nothing else changes (R173). At PAPER_OUT the pending block
of the own job is answered HELD, which starts its holding (R163, R166; that it comes at once is the model's reading, log 29).
PAPER_IN, with the service IDLE and a job of another station chosen: the entry is PRINTING, the banner stands in the buffer, the
timers run and GO is sent (R175); with nothing to choose only the input changes. -/
def Obligations.PrinterInputsActOnTheService : Prop :=
  (∀ s : State,
    (s.prn.waiting = none → exec .paperOut s = .next { s with pins := { s.pins with paperOut := true } }) ∧
      ∀ l, exec (.ready l) s = .next { s with pins := { s.pins with ready := l } }) ∧
  (∀ (s : State) (e : QueueEntry) (k : Nat) (line : List Byte) (j : Job) (b : CurBlock), s.serviceWorks = true →
    s.prn.printing = some e → e.origin = .own → s.prn.waiting = some (k, line) → s.jobOf .own e.job = some j →
    j.state = .sending → j.current = some b → b.seq = k →
    exec .paperOut s = .next (State.setJob { s with pins := { s.pins with paperOut := true }, prn := { s.prn with waiting := none } }
      { j with current := some { b with sends := 0 }, answerTimer := none, holdTimer := some (s.clock.now + ms 2000),
               heldSince := some (j.heldSince.getD s.clock.now) })) ∧
  ∀ (s : State), s.serviceWorks = true → s.prn.state = .idle →
    (s.prn.choice s.clock.now = none → exec .paperIn s = .next { s with pins := { s.pins with paperOut := false } }) ∧
    ∀ (e : QueueEntry) (n : Nat), s.prn.choice s.clock.now = some e → e.origin = .station n →
      ∃ t, exec .paperIn s = .next t ∧ t.pins = { s.pins with paperOut := false } ∧ t.prn.state = .printing ∧
        t.prn.buffer = s.prn.buffer ++ [txt "== JOB " ++ num 2 n ++ txt "/" ++ num 3 e.job ++ txt " " ++ e.kind.name] ∧
        t.prn.lastTaken = 0 ∧ t.prn.lines = 0 ∧ t.prn.grants = pushBounded 3 s.prn.grants e.origin ∧
        t.prn.inactivity = some (s.clock.now + ms 5000) ∧ t.prn.goTimer = some (s.clock.now + ms 1000) ∧
        t.line = (s.send (.go e.job) n).line ∧ t.prn.queue.length = s.prn.queue.length ∧
        (∀ x ∈ t.prn.queue, x.origin = e.origin → x.job = e.job → x.printing = true) ∧ t.rep = s.rep ∧ t.hdr = s.hdr ∧
        t.store = s.store ∧ t.ctr = s.ctr

/-- PRINT_BLOCK of the PRINTING job, by its sequence: the last taken line is answered TAKEN again and printed no second time;
the next one is answered HELD with the paper out, is taken into a buffer with room, or waits as the pending block of a full one;
each restarts the inactivity timer and stops the GO timer (R176). -/
def Obligations.BlocksAreTakenInOrder : Prop :=
  ∀ (rx : Rx) (f : PrintBlockFrame) (s : State) (e : QueueEntry), s.takes rx → f.WellFormed → s.serviceWorks = true →
    s.prn.printing = some e → e.origin = .station rx.sender.toNat → e.job = f.job.toNat →
    let p := { s.prn with inactivity := some (s.clock.now + ms 5000), goTimer := none }
    (f.mark = 0 → f.seq.toNat = s.prn.lastTaken →
      exec (.printBlock rx f) s = .next (State.send { s.heard rx with prn := p } (.taken e.job f.seq.toNat) rx.sender.toNat)) ∧
    (f.mark.toNat ≤ 1 → f.seq.toNat = s.prn.lastTaken + 1 → s.pins.paperOut = true → s.prn.waiting = none →
      exec (.printBlock rx f) s = .next (State.send { s.heard rx with prn := p } (.held e.job f.seq.toNat) rx.sender.toNat)) ∧
    (f.mark = 0 → f.seq.toNat = s.prn.lastTaken + 1 → s.pins.paperOut = false → s.prn.buffer.length < 2 →
      exec (.printBlock rx f) s = .next (State.send { s.heard rx with
        prn := { p with buffer := s.prn.buffer ++ [keepText f.text], lastTaken := s.prn.lastTaken + 1,
                        lines := s.prn.lines + 1, waiting := none } } (.taken e.job f.seq.toNat) rx.sender.toNat)) ∧
    (f.mark = 0 → f.seq.toNat = s.prn.lastTaken + 1 → s.pins.paperOut = false → 2 ≤ s.prn.buffer.length →
      exec (.printBlock rx f) s = .next { s.heard rx with prn := { p with waiting := some (f.seq.toNat, keepText f.text) } })

/-- The END block ends the PRINTING job with its trailer and TAKEN, and is recorded as the last ended job; any other sequence
ends it with the INCOMPLETE trailer and DROP, an END block under the last taken sequence among these (log 49). The trailer
enters a buffer with room or waits behind its lines; the entry leaves the queue, the timers stop and the service is FINISHING
(R176, R177). A block of a job that is not PRINTING is answered TAKEN when it repeats the END of the last ended job, and DROP
otherwise, and nothing else changes; a block of an unknown mark, or at a part without a printer, is ignored
(R173, R177, R178). -/
def Obligations.JobsEndWithTheirTrailer : Prop :=
  (∀ (rx : Rx) (f : PrintBlockFrame) (s : State), s.takes rx → f.WellFormed →
    (1 < f.mark.toNat ∨ s.straps.printer = false → exec (.printBlock rx f) s = .next (s.heard rx)) ∧
    (f.mark.toNat ≤ 1 → s.straps.printer = true →
      (∀ e, s.prn.printing = some e → ¬(e.origin = .station rx.sender.toNat ∧ e.job = f.job.toNat)) →
      exec (.printBlock rx f) s = .next ((s.heard rx).send
        (if f.mark = 1 ∧ s.prn.lastEnded = some ⟨.station rx.sender.toNat, f.job.toNat, f.seq.toNat⟩ then
          .taken f.job.toNat f.seq.toNat
        else .drop f.job.toNat) rx.sender.toNat))) ∧
  ∀ (rx : Rx) (f : PrintBlockFrame) (s : State) (e : QueueEntry), s.takes rx → f.WellFormed → s.serviceWorks = true →
    s.prn.printing = some e → e.origin = .station rx.sender.toNat → e.job = f.job.toNat →
    let tail := num 2 rx.sender.toNat ++ txt "/" ++ num 3 e.job ++ txt " LINES" ++ num 5 s.prn.lines
    let finished := fun (t : State) (trailer : List Byte) =>
      t.prn.state = .finishing ∧ t.prn.entryOf e.origin e.job = none ∧ t.prn.inactivity = none ∧ t.prn.goTimer = none ∧
        t.prn.waiting = none ∧ t.rep = s.rep ∧ t.store = s.store ∧
        (s.prn.buffer.length < 2 → t.prn.buffer = s.prn.buffer ++ [trailer] ∧ t.prn.trailer = none) ∧
        (2 ≤ s.prn.buffer.length → t.prn.buffer = s.prn.buffer ∧ t.prn.trailer = some trailer)
    (f.mark = 1 → f.seq.toNat = s.prn.lastTaken + 1 → s.pins.paperOut = false →
      ∃ t, exec (.printBlock rx f) s = .next t ∧ finished t (txt "== END " ++ tail) ∧
        t.prn.lastEnded = some ⟨e.origin, e.job, f.seq.toNat⟩ ∧
        t.line = ((s.heard rx).send (.taken e.job f.seq.toNat) rx.sender.toNat).line) ∧
    (f.mark.toNat ≤ 1 → ¬(f.mark = 0 ∧ f.seq.toNat = s.prn.lastTaken) → f.seq.toNat ≠ s.prn.lastTaken + 1 →
      ∃ t, exec (.printBlock rx f) s = .next t ∧ finished t (txt "** INCOMPLETE " ++ tail) ∧
        t.prn.lastEnded = s.prn.lastEnded ∧ t.line = ((s.heard rx).send (.drop e.job) rx.sender.toNat).line)

/-- GO_TIMER sends GO again and restarts; INACTIVITY_TIMER ends the job with the INCOMPLETE trailer, which enters a buffer with
room or waits behind its lines, and a DROP (R175, R177). That time passes to the deadline is the model's choice (log 4). -/
def Obligations.PrinterTimers : Prop :=
  ∀ (s : State) (e : QueueEntry) (n d : Nat), s.mode = .running → s.prn.printing = some e → e.origin = .station n →
    (s.prn.goTimer = some d → exec .goTimer s = .next (State.send { s.passTo d with
      prn := { s.prn with goTimer := some (max s.clock.now d + ms 1000) } } (.go e.job) n)) ∧
    (s.prn.inactivity = some d →
      let trailer := txt "** INCOMPLETE " ++ num 2 n ++ txt "/" ++ num 3 e.job ++ txt " LINES" ++ num 5 s.prn.lines
      ∃ t, exec .inactivityTimer s = .next t ∧ t.prn.state = .finishing ∧
        (s.prn.buffer.length < 2 → t.prn.buffer = s.prn.buffer ++ [trailer] ∧ t.prn.trailer = none) ∧
        (2 ≤ s.prn.buffer.length → t.prn.buffer = s.prn.buffer ∧ t.prn.trailer = some trailer) ∧
        t.prn.entryOf e.origin e.job = none ∧ t.prn.inactivity = none ∧ t.prn.goTimer = none ∧ t.prn.waiting = none ∧
        t.line = ((s.passTo d).send (.drop e.job) n).line ∧ t.rep = s.rep ∧ t.store = s.store ∧ t.ctr = s.ctr)

/-- LINE_PRINTED, with READY and paper: the first line leaves the buffer, its characters with a carriage return and a line feed
stand on the port (R173, R200), and a pending block of another station's job enters it and is answered TAKEN, one of the own job
enters it and the next line of the report is offered in its place, without a frame (R162, R166), or the trailer that waited
enters it; without either, the service that printed the last line of a job or a restart becomes IDLE (R173, R176, R177). -/
def Obligations.LinesLeaveTheBuffer : Prop :=
  ∀ (s : State) (head : List Byte) (rest : List (List Byte)), s.serviceWorks = true → s.pins.ready = true →
    s.pins.paperOut = false → s.prn.buffer = head :: rest →
    let port := head ++ [0x0D, 0x0A]
    (∀ (e : QueueEntry) (n k : Nat) (line : List Byte), rest.length = 1 → s.prn.state = .printing → s.prn.printing = some e →
      e.origin = .station n → s.prn.waiting = some (k, line) →
      exec .linePrinted s = .next (State.send { s with prn := { s.prn with
        buffer := rest ++ [line], port := port, lastTaken := k, lines := s.prn.lines + 1, waiting := none } } (.taken e.job k) n)) ∧
    (∀ (e : QueueEntry) (k : Nat) (line following : List Byte) (j : Job) (b : CurBlock) (c : Cursor), rest.length = 1 →
      s.prn.state = .printing → s.prn.printing = some e → e.origin = .own → s.prn.waiting = some (k, line) →
      s.jobOf .own e.job = some j → j.state = .sending → j.current = some b → b.seq = k → b.line ≠ none → j.nextSeq = k + 1 →
      s.nextLine j 12 j.cursor = some (following, c) →
      exec .linePrinted s = .next (State.setJob { s with prn := { s.prn with
          buffer := rest ++ [line], port := port, lastTaken := k, lines := s.prn.lines + 1, waiting := some (k + 1, following),
          inactivity := some (s.clock.now + ms 5000), goTimer := none } }
        { j with current := some ⟨k + 1, some following, 1⟩, nextSeq := k + 2, cursor := c, heldTicks := s.heldTotal j,
                 heldSince := none, holdTimer := none, answerTimer := none })) ∧
    (∀ trailer : List Byte, rest.length = 1 → s.prn.waiting = none → s.prn.trailer = some trailer →
      exec .linePrinted s = .next { s with prn := { s.prn with buffer := rest ++ [trailer], port := port, trailer := none } }) ∧
    (s.prn.state = .finishing → rest = [] → s.prn.waiting = none → s.prn.trailer = none → s.prn.queue = [] →
      exec .linePrinted s = .next { s with prn := { s.prn with buffer := [], port := port, state := .idle } })

/-! ## The line interface -/

/-- LINE_IDLE starts the queued frame of lowest priority number, the earliest queued of these, and no other frame changes; a
beacon that starts carries the station's present fields (R185, R192). -/
def Obligations.LowestPriorityStarts : Prop :=
  ∀ (s : State) (before after : List TxFrame) (f : TxFrame), s.mode = .running → (∀ g ∈ s.line.queue, g.sending = false) →
    s.line.queue = before ++ f :: after → (∀ g ∈ before, f.payload.priority < g.payload.priority) →
    (∀ g ∈ after, f.payload.priority ≤ g.payload.priority) →
    exec .lineIdle s = .next { s with line := { s.line with queue := before ++
      { f with sending := true, payload := if f.payload.isBeacon then .beacon (some s.beaconFields) else f.payload } :: after } }

/-- FRAME_SENT takes the frame under transmission out of the queue; ARBITRATION_LOST leaves it there with its attempt count;
BIT_ERROR fails the attempt, and the eighth failed attempt takes it out, as the first does of a copy that was withdrawn while
its attempt was under way, a TRIGGER being counted as dropped stale (R182, R183, R185, R186, R196). That the attempt count rises
with the failure is the model's choice (log 66). Such a copy too stays after lost arbitration, which is no failed attempt (R182,
R183); a TRIGGER past its 40 ms is removed there and counted (the model's reading, log 27). A beacon whose attempt is over
leaves the queue where a later beacon waits, since one at most waits (R186; the model's choice, log 47). TRIGGER_STALE: a
TRIGGER still waiting 40 ms after its queuing is removed and counted; one under transmission then is allowed to finish and not
tried again (R88, R196). That time passes to the deadline is the model's choice (log 4). -/
def Obligations.AttemptsEndAndTriggersGoStale : Prop :=
  (∀ (s : State) (before after : List TxFrame) (f : TxFrame), s.line.queue = before ++ f :: after → f.sending = true →
    (∀ g ∈ before ++ after, g.sending = false) →
    let later := f.payload.isBeacon = true ∧ ∃ g ∈ before ++ after, g.payload.isBeacon = true
    let left := { s with line := { s.line with queue := before ++ after } }
    exec .frameSent s = .next left ∧
    (f.noRetry = false ∨ f.payload.isTrigger = false → ¬later → exec .arbitrationLost s =
      .next { s with line := { s.line with queue := before ++ { f with sending := false } :: after } }) ∧
    (f.noRetry = false → f.attempts < 7 → f.payload.isTrigger = false → ¬later → exec .bitError s =
      .next { s with line := { s.line with queue := before ++ { f with sending := false, attempts := f.attempts + 1 } :: after } }) ∧
    (f.noRetry = true → f.payload.isTrigger = true → exec .arbitrationLost s = .next { left with
      ctr := { s.ctr with triggersStale := satAdd s.ctr.triggersStale 1 } }) ∧
    (later → exec .arbitrationLost s = .next left ∧ (f.noRetry = false → f.attempts < 7 → exec .bitError s = .next left)) ∧
    (7 ≤ f.attempts ∨ f.noRetry = true → exec .bitError s = .next { left with
      ctr := if f.payload.isTrigger then { s.ctr with triggersStale := satAdd s.ctr.triggersStale 1 } else s.ctr })) ∧
  ∀ (s : State) (before after : List TxFrame) (f : TxFrame), s.mode = .running → s.line.queue = before ++ f :: after →
    (∀ g ∈ before, g.payload.isTrigger = false) → f.payload.isTrigger = true → f.noRetry = false →
    (f.sending = false → exec .triggerStale s = .next { s.passTo (f.queuedAt + ms 40) with
      line := { s.line with queue := before ++ after },
      ctr := { s.ctr with triggersStale := satAdd s.ctr.triggersStale 1 } }) ∧
    (f.sending = true → (∀ g ∈ before ++ after, g.sending = false) →
      exec .triggerStale s = .next { s.passTo (f.queuedAt + ms 40) with
        line := { s.line with queue := before ++ { f with noRetry := true } :: after } })

/-- A BAD_FRAME changes nothing (R187); an OTHER_FRAME refreshes the roster alone (R188, R193). Of the frames of every kind that
a block takes, and of OTHER_FRAME: one with the own number as its sender makes the station MUTED and empties its queue, as
STATION_CONFLICT does, and nothing else changes (R189, R190); one with sender 15 changes nothing (R187); one addressed to
another station refreshes the roster alone, with its fields when it is a beacon (R188, R193). In PARKED no frame of any kind is
received: none changes anything, and no conflict is found (R1, R20). The same in a part without supply, and, as the model's
choice, while an acceptance is under way (R4; log 37). That a frame command is never a frame of this station's own is its choice
too (log 67). -/
def Obligations.FramesThatNoBlockTakes : Prop :=
  (∀ s : State, s.mode ≠ .running ∨ s.sup.opening ≠ none →
    (∀ (c : Instr) (pr : BitVec 3) (f : RawFrame), frameOf pr c = some f → exec c s = .next s) ∧
      (∀ rx k, exec (.otherFrame rx k) s = .next s) ∧ exec .stationConflict s = .next s) ∧
  (∀ s : State,
    (∀ b, exec (.badFrame b) s = .next s) ∧
    (∀ rx k, s.takes rx → exec (.otherFrame rx k) s = .next (s.heard rx)) ∧
    (∀ rx k, rx.sender = 15 → exec (.otherFrame rx k) s = .next s) ∧
    (s.mode = .running → s.sup.opening = none → ∀ n, s.ownNumber = some n →
      exec .stationConflict s = .next { s with line := { s.line with muted := true, queue := [] } } ∧
      ∀ rx k, rx.sender.toNat = n → rx.sender ≠ 15 →
        exec (.otherFrame rx k) s = .next { s with line := { s.line with muted := true, queue := [] } })) ∧
  ∀ (c : Instr) (pr : BitVec 3) (f : RawFrame) (s : State), frameOf pr c = some f →
    (f.sender = 15 → exec c s = .next s) ∧
    (c.wellFormed = true → s.mode = .running → s.sup.opening = none →
      (s.ownNumber = some f.sender.toNat → exec c s = .next { s with line := { s.line with muted := true, queue := [] } }) ∧
      (s.ownNumber ≠ some f.sender.toNat → f.addressee ≠ 15 → s.ownNumber ≠ some f.addressee.toNat →
        exec c s = .next { s with line := s.line.refresh f.sender.toNat s.clock.now (rosterFields c) }))

/-- BEACON: the roster entry of its sender shows it, and no other entry changes (R193). That the roster keeps the unnamed bits
of the flags as received is the model's choice (log 58). In REJOINING with the header's survey number and state RECORDING, the
station adopts the survey time, becomes RECORDING, writes the header with that time and restarts the checkpoint timer; events,
captures and intervals go on, the millisecond begins anew (the model's reading, log 2), and a note whose span end is reached
expires (R18, R10, R12, R151); a time at the limit closes the survey after that (R8). With state CLOSED it closes the survey at
the provisional time (R19). Either close is the closing operation, which seals everything open with CUT and waits for the
closing writes of the captures it seals (R6, R95; its writes and their order are logs 25, 55 and 63); one under way already goes
on as it is (log 63). In any other case survey control passes it over. While measurement runs in FREE or PEER the timebase makes
its choice with it (R37 to R39): the peer chosen becomes the source, and P follows its frequency at the next strobe, at the
entry into PEER too (R38; log 62). -/
def Obligations.BeaconsEndTheRejoining : Prop :=
  ∀ (rx : Rx) (f : BeaconFrame) (s : State), s.takes rx →
    let heard := s.heardBeacon rx (infoOf f)
    let choice := match heard.peerChoice with
      | some (n, f) => { s.tb with state := .peer, nextPeriod := some (40000000000 / f), source := some n, held := 0, qual := 0 }
      | none => { s.tb with state := .free, period := nominalPeriod s.hdr.params.hz, nextPeriod := none, source := none,
                            held := 0, qual := 0 }
    let follows := fun x : State =>
      { x with tb := if x.inSurvey = true ∧ (s.tb.state = .free ∨ s.tb.state = .peer) then choice else x.tb }
    heard.line.entryOf rx.sender.toNat = some ⟨rx.sender.toNat, s.clock.now, some s.clock.now,
      some ⟨f.number.toNat, f.state.toNat, f.flags.toNat, f.time.toNat, f.tbState.toNat, f.freq.toNat, f.cause.toNat⟩⟩ ∧
    (∀ n, n ≠ rx.sender.toNat → heard.line.entryOf n = s.line.entryOf n) ∧
    (s.hdr.state = .rejoining → f.number.toNat = s.hdr.number →
      (f.state = 1 → f.time.toNat < 4000000000 ∨ s.sup.sealing ≠ none →
        ∃ t, exec (.beacon rx f) s = .next t ∧ t.hdr = { s.hdr with state := .recording, checkpoint := f.time.toNat } ∧
          t.clock = { s.clock with survey := f.time.toNat, phase := 0 } ∧ t.sup = s.sup ∧
          t.store.writes = s.store.writes ++ [.header t.hdr false] ∧
          t.ckpt = some (s.clock.now + ms 10000) ∧ t.ev = s.ev ∧ t.cap = s.cap ∧ t.har = s.har ∧ t.lev = s.lev ∧
          t.notes = s.notes.map (NoteEntry.expireAt f.time.toNat) ∧ t.line = heard.line ∧ t.rep = s.rep ∧ t.ctr = s.ctr ∧
          t.provisional = false ∧ t.tb = if s.tb.state = .free ∨ s.tb.state = .peer then choice else s.tb) ∧
      (f.state = 1 → 4000000000 ≤ f.time.toNat → s.sup.sealing = none →
        let hdr := { s.hdr with state := .recording, checkpoint := f.time.toNat }
        let adopted := { heard with
          hdr := hdr, notes := s.notes.map (NoteEntry.expireAt f.time.toNat), ckpt := some (s.clock.now + ms 10000)
          clock := { s.clock with survey := f.time.toNat, phase := 0 }
          store := { s.store with writes := s.store.writes ++ [.header hdr false] } }
        ∃ u t, exec (.beacon rx f) s = .next t ∧ u.closesFrom adopted [] ∧ t = follows u ∧
          t.clock.survey = f.time.toNat ∧ t.ev.event = none ∧ (∀ sl ∈ t.cap.slots, sl.closing = true) ∧ t.line = heard.line ∧
          t.rep = s.rep ∧
          ((∀ sl ∈ s.cap.slots, sl.running = false) → t.hdr = { s.hdr with state := .closed, checkpoint := f.time.toNat } ∧
            t.tb = { s.tb with state := .stopped } ∧ t.har.accum = none ∧ t.ckpt = none)) ∧
      (f.state = 3 → s.sup.sealing = none →
        ∃ u t, exec (.beacon rx f) s = .next t ∧ u.closesFrom heard [] ∧ t = follows u ∧ t.clock = s.clock ∧ t.ev.event = none ∧
          (∀ sl ∈ t.cap.slots, sl.closing = true) ∧ t.line = heard.line ∧ t.rep = s.rep ∧
          ((∀ sl ∈ s.cap.slots, sl.running = false) → t.hdr = { s.hdr with state := .closed, checkpoint := s.clock.survey } ∧
            t.tb = { s.tb with state := .stopped } ∧ t.har.accum = none ∧ t.ckpt = none))) ∧
    (s.hdr.state ≠ .rejoining ∨ f.number.toNat ≠ s.hdr.number ∨ (f.state ≠ 1 ∧ (f.state ≠ 3 ∨ s.sup.sealing ≠ none)) →
      exec (.beacon rx f) s = .next (follows heard))

/-- BEACON_TIMER hands a beacon to all stations to the transmit queue, and its next expiry comes 1000 ms after this one (R191).
That time passes to the deadline is the model's choice (log 4). -/
def Obligations.BeaconsEverySecond : Prop :=
  ∀ (s : State) (d : Nat), s.mode = .running → s.line.beaconTimer = some d →
    exec .beaconTimer s = .next (State.send { s.passTo d with line := { s.line with beaconTimer := some (d + ms 1000) } }
      (.beacon none) 15)

/-- ROSTER_EXPIRY empties the entry of a station, and the entries of other stations stay. The report engine abandons the QUEUED
jobs of that printer without a frame, releasing their pins and counting them, and keeps every other job; the printer service
removes the WAITING entries of that origin; and a timebase in PEER that follows the station chooses again (R194, R161, R178,
R38). That time passes to the deadline is the model's choice (log 4), and so is that the timebase chooses also while a close
waits for its captures' closing writes (log 63). -/
def Obligations.RosterEntryExpires : Prop :=
  ∀ (s : State) (n : BitVec 4) (e : RosterEntry), s.mode = .running → s.line.entryOf n.toNat = some e →
    (s.rep.jobs.map (·.entry)).Nodup → s.ctr.ok →
    let gone := fun j : Job => j.printer == .station n.toNat && j.state == .queued
    let lost := s.rep.jobs.filter gone
    ∃ t, exec (.rosterExpiry n) s = .next t ∧ t.line = { s.line with roster := s.line.roster.filter fun x => x.station != n.toNat } ∧
      t.line.entryOf n.toNat = none ∧ t.rep = { s.rep with jobs := s.rep.jobs.filter fun j => !gone j } ∧
      t.store = lost.foldl (fun st j => j.records.foldl Store.unpin st) s.store ∧
      t.ctr = { s.ctr with jobsAbandoned := satAdd s.ctr.jobsAbandoned lost.length } ∧
      t.prn = { s.prn with queue := s.prn.queue.filter fun x => !(x.origin == .station n.toNat && !x.printing) } ∧
      t.tb = (if s.inSurvey = true ∧ s.tb.state = .peer ∧ s.tb.source = some n.toNat then
        s.tb.choose s.hdr.params.hz { s.passTo (e.lastFrame + ms 3000) with line := t.line }.peerChoice else s.tb) ∧
      t.clock.now = max s.clock.now (e.lastFrame + ms 3000) ∧ t.hdr = s.hdr ∧ t.cap = s.cap ∧ t.ev = s.ev

/-- STATION_QUERY is answered with a STATION REPORT of the present values to its sender, at priority 2: survey state, number and
time, TIME UNSURE, the timebase and the 17 counters in their order; a MUTED station's report is discarded (R195). -/
def Obligations.StationQueryIsAnswered : Prop :=
  ∀ (rx : Rx) (s : State), s.takes rx →
    let report : Payload := .stationReport s.hdr.state.code s.hdr.number s.clock.survey
        (if s.hdr.state = .rejoining then 1 else 0) s.tb.state.code
        (if s.tb.state = .locked then 40000000000 / s.tb.period else 0)
        [s.ctr.events, s.ctr.summariesLost, s.ctr.companionsOpened, s.ctr.companionsMissed, s.ctr.capturesTruncated,
         s.ctr.capturesNoWave, s.ctr.triggersStale, s.ctr.intervalsSealed, s.ctr.intervalsLost, s.ctr.blocksTimebase,
         s.ctr.blocksEvent, s.ctr.recordsReclaimed, s.ctr.badPages, s.ctr.notesExpiredEarly, s.ctr.jobsCompleted,
         s.ctr.jobsAbandoned, s.ctr.jobsRefused]
    exec (.stationQuery rx) s = .next ((s.heard rx).send report rx.sender.toNat) ∧ report.priority = 2 ∧
      (s.line.muted = true → exec (.stationQuery rx) s = .next (s.heard rx))
end

