-- ==== Sys2Proof/Laws/State.lean ====
section
/-!
SUPPORT. What each shared update of the state leaves as it stands: one lemma per update and field.
-/

namespace Sys2Proof.Machine

variable (s : State)

@[simp] theorem setSurvey_pending (t p : Nat) : (s.setSurvey t p).pending = s.pending := rfl
@[simp] theorem setSurvey_mode (t p : Nat) : (s.setSurvey t p).mode = s.mode := rfl
@[simp] theorem setSurvey_pins (t p : Nat) : (s.setSurvey t p).pins = s.pins := rfl
@[simp] theorem setSurvey_straps (t p : Nat) : (s.setSurvey t p).straps = s.straps := rfl
@[simp] theorem setSurvey_sup (t p : Nat) : (s.setSurvey t p).sup = s.sup := rfl
@[simp] theorem setSurvey_hdr (t p : Nat) : (s.setSurvey t p).hdr = s.hdr := rfl
@[simp] theorem setSurvey_lastCause (t p : Nat) : (s.setSurvey t p).lastCause = s.lastCause := rfl
@[simp] theorem setSurvey_ckpt (t p : Nat) : (s.setSurvey t p).ckpt = s.ckpt := rfl
@[simp] theorem setSurvey_tb (t p : Nat) : (s.setSurvey t p).tb = s.tb := rfl
@[simp] theorem setSurvey_lev (t p : Nat) : (s.setSurvey t p).lev = s.lev := rfl
@[simp] theorem setSurvey_ev (t p : Nat) : (s.setSurvey t p).ev = s.ev := rfl
@[simp] theorem setSurvey_cap (t p : Nat) : (s.setSurvey t p).cap = s.cap := rfl
@[simp] theorem setSurvey_har (t p : Nat) : (s.setSurvey t p).har = s.har := rfl
@[simp] theorem setSurvey_store (t p : Nat) : (s.setSurvey t p).store = s.store := rfl
@[simp] theorem setSurvey_rep (t p : Nat) : (s.setSurvey t p).rep = s.rep := rfl
@[simp] theorem setSurvey_prn (t p : Nat) : (s.setSurvey t p).prn = s.prn := rfl
@[simp] theorem setSurvey_line (t p : Nat) : (s.setSurvey t p).line = s.line := rfl
@[simp] theorem setSurvey_ctr (t p : Nat) : (s.setSurvey t p).ctr = s.ctr := rfl

@[simp] theorem send_pending (p : Payload) (a : Nat) : (s.send p a).pending = s.pending := rfl
@[simp] theorem send_mode (p : Payload) (a : Nat) : (s.send p a).mode = s.mode := rfl
@[simp] theorem send_clock (p : Payload) (a : Nat) : (s.send p a).clock = s.clock := rfl
@[simp] theorem send_pins (p : Payload) (a : Nat) : (s.send p a).pins = s.pins := rfl
@[simp] theorem send_straps (p : Payload) (a : Nat) : (s.send p a).straps = s.straps := rfl
@[simp] theorem send_sup (p : Payload) (a : Nat) : (s.send p a).sup = s.sup := rfl
@[simp] theorem send_hdr (p : Payload) (a : Nat) : (s.send p a).hdr = s.hdr := rfl
@[simp] theorem send_lastCause (p : Payload) (a : Nat) : (s.send p a).lastCause = s.lastCause := rfl
@[simp] theorem send_ckpt (p : Payload) (a : Nat) : (s.send p a).ckpt = s.ckpt := rfl
@[simp] theorem send_tb (p : Payload) (a : Nat) : (s.send p a).tb = s.tb := rfl
@[simp] theorem send_lev (p : Payload) (a : Nat) : (s.send p a).lev = s.lev := rfl
@[simp] theorem send_ev (p : Payload) (a : Nat) : (s.send p a).ev = s.ev := rfl
@[simp] theorem send_cap (p : Payload) (a : Nat) : (s.send p a).cap = s.cap := rfl
@[simp] theorem send_har (p : Payload) (a : Nat) : (s.send p a).har = s.har := rfl
@[simp] theorem send_store (p : Payload) (a : Nat) : (s.send p a).store = s.store := rfl
@[simp] theorem send_notes (p : Payload) (a : Nat) : (s.send p a).notes = s.notes := rfl
@[simp] theorem send_rep (p : Payload) (a : Nat) : (s.send p a).rep = s.rep := rfl
@[simp] theorem send_prn (p : Payload) (a : Nat) : (s.send p a).prn = s.prn := rfl
@[simp] theorem send_ctr (p : Payload) (a : Nat) : (s.send p a).ctr = s.ctr := rfl

@[simp] theorem answer_pending (r c j : Nat) (f : Bool) (a : Nat) : (s.answer r c j f a).pending = s.pending := rfl
@[simp] theorem answer_mode (r c j : Nat) (f : Bool) (a : Nat) : (s.answer r c j f a).mode = s.mode := rfl
@[simp] theorem answer_clock (r c j : Nat) (f : Bool) (a : Nat) : (s.answer r c j f a).clock = s.clock := rfl
@[simp] theorem answer_pins (r c j : Nat) (f : Bool) (a : Nat) : (s.answer r c j f a).pins = s.pins := rfl
@[simp] theorem answer_straps (r c j : Nat) (f : Bool) (a : Nat) : (s.answer r c j f a).straps = s.straps := rfl
@[simp] theorem answer_sup (r c j : Nat) (f : Bool) (a : Nat) : (s.answer r c j f a).sup = s.sup := rfl
@[simp] theorem answer_hdr (r c j : Nat) (f : Bool) (a : Nat) : (s.answer r c j f a).hdr = s.hdr := rfl
@[simp] theorem answer_lastCause (r c j : Nat) (f : Bool) (a : Nat) : (s.answer r c j f a).lastCause = s.lastCause := rfl
@[simp] theorem answer_ckpt (r c j : Nat) (f : Bool) (a : Nat) : (s.answer r c j f a).ckpt = s.ckpt := rfl
@[simp] theorem answer_tb (r c j : Nat) (f : Bool) (a : Nat) : (s.answer r c j f a).tb = s.tb := rfl
@[simp] theorem answer_lev (r c j : Nat) (f : Bool) (a : Nat) : (s.answer r c j f a).lev = s.lev := rfl
@[simp] theorem answer_ev (r c j : Nat) (f : Bool) (a : Nat) : (s.answer r c j f a).ev = s.ev := rfl
@[simp] theorem answer_cap (r c j : Nat) (f : Bool) (a : Nat) : (s.answer r c j f a).cap = s.cap := rfl
@[simp] theorem answer_har (r c j : Nat) (f : Bool) (a : Nat) : (s.answer r c j f a).har = s.har := rfl
@[simp] theorem answer_store (r c j : Nat) (f : Bool) (a : Nat) : (s.answer r c j f a).store = s.store := rfl
@[simp] theorem answer_notes (r c j : Nat) (f : Bool) (a : Nat) : (s.answer r c j f a).notes = s.notes := rfl
@[simp] theorem answer_rep (r c j : Nat) (f : Bool) (a : Nat) : (s.answer r c j f a).rep = s.rep := rfl
@[simp] theorem answer_prn (r c j : Nat) (f : Bool) (a : Nat) : (s.answer r c j f a).prn = s.prn := rfl
@[simp] theorem answer_ctr (r c j : Nat) (f : Bool) (a : Nat) : (s.answer r c j f a).ctr = s.ctr := rfl

@[simp] theorem conflict_pending : (s.conflict).pending = s.pending := rfl
@[simp] theorem conflict_mode : (s.conflict).mode = s.mode := rfl
@[simp] theorem conflict_clock : (s.conflict).clock = s.clock := rfl
@[simp] theorem conflict_pins : (s.conflict).pins = s.pins := rfl
@[simp] theorem conflict_straps : (s.conflict).straps = s.straps := rfl
@[simp] theorem conflict_sup : (s.conflict).sup = s.sup := rfl
@[simp] theorem conflict_hdr : (s.conflict).hdr = s.hdr := rfl
@[simp] theorem conflict_lastCause : (s.conflict).lastCause = s.lastCause := rfl
@[simp] theorem conflict_ckpt : (s.conflict).ckpt = s.ckpt := rfl
@[simp] theorem conflict_tb : (s.conflict).tb = s.tb := rfl
@[simp] theorem conflict_lev : (s.conflict).lev = s.lev := rfl
@[simp] theorem conflict_ev : (s.conflict).ev = s.ev := rfl
@[simp] theorem conflict_cap : (s.conflict).cap = s.cap := rfl
@[simp] theorem conflict_har : (s.conflict).har = s.har := rfl
@[simp] theorem conflict_store : (s.conflict).store = s.store := rfl
@[simp] theorem conflict_notes : (s.conflict).notes = s.notes := rfl
@[simp] theorem conflict_rep : (s.conflict).rep = s.rep := rfl
@[simp] theorem conflict_prn : (s.conflict).prn = s.prn := rfl
@[simp] theorem conflict_ctr : (s.conflict).ctr = s.ctr := rfl

@[simp] theorem writeHeader_pending : (s.writeHeader).pending = s.pending := rfl
@[simp] theorem writeHeader_mode : (s.writeHeader).mode = s.mode := rfl
@[simp] theorem writeHeader_clock : (s.writeHeader).clock = s.clock := rfl
@[simp] theorem writeHeader_pins : (s.writeHeader).pins = s.pins := rfl
@[simp] theorem writeHeader_straps : (s.writeHeader).straps = s.straps := rfl
@[simp] theorem writeHeader_sup : (s.writeHeader).sup = s.sup := rfl
@[simp] theorem writeHeader_lastCause : (s.writeHeader).lastCause = s.lastCause := rfl
@[simp] theorem writeHeader_tb : (s.writeHeader).tb = s.tb := rfl
@[simp] theorem writeHeader_lev : (s.writeHeader).lev = s.lev := rfl
@[simp] theorem writeHeader_ev : (s.writeHeader).ev = s.ev := rfl
@[simp] theorem writeHeader_cap : (s.writeHeader).cap = s.cap := rfl
@[simp] theorem writeHeader_har : (s.writeHeader).har = s.har := rfl
@[simp] theorem writeHeader_notes : (s.writeHeader).notes = s.notes := rfl
@[simp] theorem writeHeader_rep : (s.writeHeader).rep = s.rep := rfl
@[simp] theorem writeHeader_prn : (s.writeHeader).prn = s.prn := rfl
@[simp] theorem writeHeader_line : (s.writeHeader).line = s.line := rfl
@[simp] theorem writeHeader_ctr : (s.writeHeader).ctr = s.ctr := rfl

@[simp] theorem setLink_pending (l : Option Nat) : (s.setLink l).pending = s.pending := rfl
@[simp] theorem setLink_mode (l : Option Nat) : (s.setLink l).mode = s.mode := rfl
@[simp] theorem setLink_clock (l : Option Nat) : (s.setLink l).clock = s.clock := rfl
@[simp] theorem setLink_pins (l : Option Nat) : (s.setLink l).pins = s.pins := rfl
@[simp] theorem setLink_straps (l : Option Nat) : (s.setLink l).straps = s.straps := rfl
@[simp] theorem setLink_sup (l : Option Nat) : (s.setLink l).sup = s.sup := rfl
@[simp] theorem setLink_hdr (l : Option Nat) : (s.setLink l).hdr = s.hdr := rfl
@[simp] theorem setLink_lastCause (l : Option Nat) : (s.setLink l).lastCause = s.lastCause := rfl
@[simp] theorem setLink_ckpt (l : Option Nat) : (s.setLink l).ckpt = s.ckpt := rfl
@[simp] theorem setLink_tb (l : Option Nat) : (s.setLink l).tb = s.tb := rfl
@[simp] theorem setLink_lev (l : Option Nat) : (s.setLink l).lev = s.lev := rfl
@[simp] theorem setLink_cap (l : Option Nat) : (s.setLink l).cap = s.cap := rfl
@[simp] theorem setLink_har (l : Option Nat) : (s.setLink l).har = s.har := rfl
@[simp] theorem setLink_store (l : Option Nat) : (s.setLink l).store = s.store := rfl
@[simp] theorem setLink_notes (l : Option Nat) : (s.setLink l).notes = s.notes := rfl
@[simp] theorem setLink_rep (l : Option Nat) : (s.setLink l).rep = s.rep := rfl
@[simp] theorem setLink_prn (l : Option Nat) : (s.setLink l).prn = s.prn := rfl
@[simp] theorem setLink_line (l : Option Nat) : (s.setLink l).line = s.line := rfl
@[simp] theorem setLink_ctr (l : Option Nat) : (s.setLink l).ctr = s.ctr := rfl

@[simp] theorem setJob_pending (j : Job) : (s.setJob j).pending = s.pending := rfl
@[simp] theorem setJob_mode (j : Job) : (s.setJob j).mode = s.mode := rfl
@[simp] theorem setJob_clock (j : Job) : (s.setJob j).clock = s.clock := rfl
@[simp] theorem setJob_pins (j : Job) : (s.setJob j).pins = s.pins := rfl
@[simp] theorem setJob_straps (j : Job) : (s.setJob j).straps = s.straps := rfl
@[simp] theorem setJob_sup (j : Job) : (s.setJob j).sup = s.sup := rfl
@[simp] theorem setJob_hdr (j : Job) : (s.setJob j).hdr = s.hdr := rfl
@[simp] theorem setJob_lastCause (j : Job) : (s.setJob j).lastCause = s.lastCause := rfl
@[simp] theorem setJob_ckpt (j : Job) : (s.setJob j).ckpt = s.ckpt := rfl
@[simp] theorem setJob_tb (j : Job) : (s.setJob j).tb = s.tb := rfl
@[simp] theorem setJob_lev (j : Job) : (s.setJob j).lev = s.lev := rfl
@[simp] theorem setJob_ev (j : Job) : (s.setJob j).ev = s.ev := rfl
@[simp] theorem setJob_cap (j : Job) : (s.setJob j).cap = s.cap := rfl
@[simp] theorem setJob_har (j : Job) : (s.setJob j).har = s.har := rfl
@[simp] theorem setJob_store (j : Job) : (s.setJob j).store = s.store := rfl
@[simp] theorem setJob_notes (j : Job) : (s.setJob j).notes = s.notes := rfl
@[simp] theorem setJob_prn (j : Job) : (s.setJob j).prn = s.prn := rfl
@[simp] theorem setJob_line (j : Job) : (s.setJob j).line = s.line := rfl
@[simp] theorem setJob_ctr (j : Job) : (s.setJob j).ctr = s.ctr := rfl

@[simp] theorem choosePeer_pending : (s.choosePeer).pending = s.pending := rfl
@[simp] theorem choosePeer_mode : (s.choosePeer).mode = s.mode := rfl
@[simp] theorem choosePeer_clock : (s.choosePeer).clock = s.clock := rfl
@[simp] theorem choosePeer_pins : (s.choosePeer).pins = s.pins := rfl
@[simp] theorem choosePeer_straps : (s.choosePeer).straps = s.straps := rfl
@[simp] theorem choosePeer_sup : (s.choosePeer).sup = s.sup := rfl
@[simp] theorem choosePeer_hdr : (s.choosePeer).hdr = s.hdr := rfl
@[simp] theorem choosePeer_lastCause : (s.choosePeer).lastCause = s.lastCause := rfl
@[simp] theorem choosePeer_ckpt : (s.choosePeer).ckpt = s.ckpt := rfl
@[simp] theorem choosePeer_lev : (s.choosePeer).lev = s.lev := rfl
@[simp] theorem choosePeer_ev : (s.choosePeer).ev = s.ev := rfl
@[simp] theorem choosePeer_cap : (s.choosePeer).cap = s.cap := rfl
@[simp] theorem choosePeer_har : (s.choosePeer).har = s.har := rfl
@[simp] theorem choosePeer_store : (s.choosePeer).store = s.store := rfl
@[simp] theorem choosePeer_notes : (s.choosePeer).notes = s.notes := rfl
@[simp] theorem choosePeer_rep : (s.choosePeer).rep = s.rep := rfl
@[simp] theorem choosePeer_prn : (s.choosePeer).prn = s.prn := rfl
@[simp] theorem choosePeer_line : (s.choosePeer).line = s.line := rfl
@[simp] theorem choosePeer_ctr : (s.choosePeer).ctr = s.ctr := rfl

@[simp] theorem stopTimebase_pending : (s.stopTimebase).pending = s.pending := rfl
@[simp] theorem stopTimebase_mode : (s.stopTimebase).mode = s.mode := rfl
@[simp] theorem stopTimebase_clock : (s.stopTimebase).clock = s.clock := rfl
@[simp] theorem stopTimebase_pins : (s.stopTimebase).pins = s.pins := rfl
@[simp] theorem stopTimebase_straps : (s.stopTimebase).straps = s.straps := rfl
@[simp] theorem stopTimebase_sup : (s.stopTimebase).sup = s.sup := rfl
@[simp] theorem stopTimebase_hdr : (s.stopTimebase).hdr = s.hdr := rfl
@[simp] theorem stopTimebase_lastCause : (s.stopTimebase).lastCause = s.lastCause := rfl
@[simp] theorem stopTimebase_ckpt : (s.stopTimebase).ckpt = s.ckpt := rfl
@[simp] theorem stopTimebase_lev : (s.stopTimebase).lev = s.lev := rfl
@[simp] theorem stopTimebase_ev : (s.stopTimebase).ev = s.ev := rfl
@[simp] theorem stopTimebase_cap : (s.stopTimebase).cap = s.cap := rfl
@[simp] theorem stopTimebase_har : (s.stopTimebase).har = s.har := rfl
@[simp] theorem stopTimebase_store : (s.stopTimebase).store = s.store := rfl
@[simp] theorem stopTimebase_notes : (s.stopTimebase).notes = s.notes := rfl
@[simp] theorem stopTimebase_rep : (s.stopTimebase).rep = s.rep := rfl
@[simp] theorem stopTimebase_prn : (s.stopTimebase).prn = s.prn := rfl
@[simp] theorem stopTimebase_line : (s.stopTimebase).line = s.line := rfl
@[simp] theorem stopTimebase_ctr : (s.stopTimebase).ctr = s.ctr := rfl

@[simp] theorem captureInstant_pending (x : List (BitVec 16)) : (s.captureInstant x).pending = s.pending := rfl
@[simp] theorem captureInstant_mode (x : List (BitVec 16)) : (s.captureInstant x).mode = s.mode := rfl
@[simp] theorem captureInstant_clock (x : List (BitVec 16)) : (s.captureInstant x).clock = s.clock := rfl
@[simp] theorem captureInstant_pins (x : List (BitVec 16)) : (s.captureInstant x).pins = s.pins := rfl
@[simp] theorem captureInstant_straps (x : List (BitVec 16)) : (s.captureInstant x).straps = s.straps := rfl
@[simp] theorem captureInstant_sup (x : List (BitVec 16)) : (s.captureInstant x).sup = s.sup := rfl
@[simp] theorem captureInstant_hdr (x : List (BitVec 16)) : (s.captureInstant x).hdr = s.hdr := rfl
@[simp] theorem captureInstant_lastCause (x : List (BitVec 16)) : (s.captureInstant x).lastCause = s.lastCause := rfl
@[simp] theorem captureInstant_ckpt (x : List (BitVec 16)) : (s.captureInstant x).ckpt = s.ckpt := rfl
@[simp] theorem captureInstant_tb (x : List (BitVec 16)) : (s.captureInstant x).tb = s.tb := rfl
@[simp] theorem captureInstant_lev (x : List (BitVec 16)) : (s.captureInstant x).lev = s.lev := rfl
@[simp] theorem captureInstant_ev (x : List (BitVec 16)) : (s.captureInstant x).ev = s.ev := rfl
@[simp] theorem captureInstant_har (x : List (BitVec 16)) : (s.captureInstant x).har = s.har := rfl
@[simp] theorem captureInstant_notes (x : List (BitVec 16)) : (s.captureInstant x).notes = s.notes := rfl
@[simp] theorem captureInstant_rep (x : List (BitVec 16)) : (s.captureInstant x).rep = s.rep := rfl
@[simp] theorem captureInstant_prn (x : List (BitVec 16)) : (s.captureInstant x).prn = s.prn := rfl
@[simp] theorem captureInstant_line (x : List (BitVec 16)) : (s.captureInstant x).line = s.line := rfl
@[simp] theorem captureInstant_ctr (x : List (BitVec 16)) : (s.captureInstant x).ctr = s.ctr := rfl

@[simp] theorem sealSlot_pending (l : Slot) (o : CapOutcome) : (s.sealSlot l o).pending = s.pending := rfl
@[simp] theorem sealSlot_mode (l : Slot) (o : CapOutcome) : (s.sealSlot l o).mode = s.mode := rfl
@[simp] theorem sealSlot_clock (l : Slot) (o : CapOutcome) : (s.sealSlot l o).clock = s.clock := rfl
@[simp] theorem sealSlot_pins (l : Slot) (o : CapOutcome) : (s.sealSlot l o).pins = s.pins := rfl
@[simp] theorem sealSlot_straps (l : Slot) (o : CapOutcome) : (s.sealSlot l o).straps = s.straps := rfl
@[simp] theorem sealSlot_sup (l : Slot) (o : CapOutcome) : (s.sealSlot l o).sup = s.sup := rfl
@[simp] theorem sealSlot_hdr (l : Slot) (o : CapOutcome) : (s.sealSlot l o).hdr = s.hdr := rfl
@[simp] theorem sealSlot_lastCause (l : Slot) (o : CapOutcome) : (s.sealSlot l o).lastCause = s.lastCause := rfl
@[simp] theorem sealSlot_ckpt (l : Slot) (o : CapOutcome) : (s.sealSlot l o).ckpt = s.ckpt := rfl
@[simp] theorem sealSlot_tb (l : Slot) (o : CapOutcome) : (s.sealSlot l o).tb = s.tb := rfl
@[simp] theorem sealSlot_lev (l : Slot) (o : CapOutcome) : (s.sealSlot l o).lev = s.lev := rfl
@[simp] theorem sealSlot_ev (l : Slot) (o : CapOutcome) : (s.sealSlot l o).ev = s.ev := rfl
@[simp] theorem sealSlot_har (l : Slot) (o : CapOutcome) : (s.sealSlot l o).har = s.har := rfl
@[simp] theorem sealSlot_notes (l : Slot) (o : CapOutcome) : (s.sealSlot l o).notes = s.notes := rfl
@[simp] theorem sealSlot_rep (l : Slot) (o : CapOutcome) : (s.sealSlot l o).rep = s.rep := rfl
@[simp] theorem sealSlot_prn (l : Slot) (o : CapOutcome) : (s.sealSlot l o).prn = s.prn := rfl
@[simp] theorem sealSlot_line (l : Slot) (o : CapOutcome) : (s.sealSlot l o).line = s.line := rfl
@[simp] theorem sealSlot_ctr (l : Slot) (o : CapOutcome) : (s.sealSlot l o).ctr = s.ctr := rfl

@[simp] theorem truncate_pending (l : Slot) : (s.truncate l).pending = s.pending := rfl
@[simp] theorem truncate_mode (l : Slot) : (s.truncate l).mode = s.mode := rfl
@[simp] theorem truncate_clock (l : Slot) : (s.truncate l).clock = s.clock := rfl
@[simp] theorem truncate_pins (l : Slot) : (s.truncate l).pins = s.pins := rfl
@[simp] theorem truncate_straps (l : Slot) : (s.truncate l).straps = s.straps := rfl
@[simp] theorem truncate_sup (l : Slot) : (s.truncate l).sup = s.sup := rfl
@[simp] theorem truncate_hdr (l : Slot) : (s.truncate l).hdr = s.hdr := rfl
@[simp] theorem truncate_lastCause (l : Slot) : (s.truncate l).lastCause = s.lastCause := rfl
@[simp] theorem truncate_ckpt (l : Slot) : (s.truncate l).ckpt = s.ckpt := rfl
@[simp] theorem truncate_tb (l : Slot) : (s.truncate l).tb = s.tb := rfl
@[simp] theorem truncate_lev (l : Slot) : (s.truncate l).lev = s.lev := rfl
@[simp] theorem truncate_ev (l : Slot) : (s.truncate l).ev = s.ev := rfl
@[simp] theorem truncate_har (l : Slot) : (s.truncate l).har = s.har := rfl
@[simp] theorem truncate_notes (l : Slot) : (s.truncate l).notes = s.notes := rfl
@[simp] theorem truncate_rep (l : Slot) : (s.truncate l).rep = s.rep := rfl
@[simp] theorem truncate_prn (l : Slot) : (s.truncate l).prn = s.prn := rfl
@[simp] theorem truncate_line (l : Slot) : (s.truncate l).line = s.line := rfl

@[simp] theorem convert_pending (l : Slot) (q v t : Nat) : (s.convert l q v t).pending = s.pending := rfl
@[simp] theorem convert_mode (l : Slot) (q v t : Nat) : (s.convert l q v t).mode = s.mode := rfl
@[simp] theorem convert_clock (l : Slot) (q v t : Nat) : (s.convert l q v t).clock = s.clock := rfl
@[simp] theorem convert_pins (l : Slot) (q v t : Nat) : (s.convert l q v t).pins = s.pins := rfl
@[simp] theorem convert_straps (l : Slot) (q v t : Nat) : (s.convert l q v t).straps = s.straps := rfl
@[simp] theorem convert_sup (l : Slot) (q v t : Nat) : (s.convert l q v t).sup = s.sup := rfl
@[simp] theorem convert_hdr (l : Slot) (q v t : Nat) : (s.convert l q v t).hdr = s.hdr := rfl
@[simp] theorem convert_lastCause (l : Slot) (q v t : Nat) : (s.convert l q v t).lastCause = s.lastCause := rfl
@[simp] theorem convert_ckpt (l : Slot) (q v t : Nat) : (s.convert l q v t).ckpt = s.ckpt := rfl
@[simp] theorem convert_tb (l : Slot) (q v t : Nat) : (s.convert l q v t).tb = s.tb := rfl
@[simp] theorem convert_lev (l : Slot) (q v t : Nat) : (s.convert l q v t).lev = s.lev := rfl
@[simp] theorem convert_ev (l : Slot) (q v t : Nat) : (s.convert l q v t).ev = s.ev := rfl
@[simp] theorem convert_har (l : Slot) (q v t : Nat) : (s.convert l q v t).har = s.har := rfl
@[simp] theorem convert_notes (l : Slot) (q v t : Nat) : (s.convert l q v t).notes = s.notes := rfl
@[simp] theorem convert_rep (l : Slot) (q v t : Nat) : (s.convert l q v t).rep = s.rep := rfl
@[simp] theorem convert_prn (l : Slot) (q v t : Nat) : (s.convert l q v t).prn = s.prn := rfl
@[simp] theorem convert_line (l : Slot) (q v t : Nat) : (s.convert l q v t).line = s.line := rfl
@[simp] theorem convert_ctr (l : Slot) (q v t : Nat) : (s.convert l q v t).ctr = s.ctr := rfl

@[simp] theorem raiseLevel_pending (q v : Nat) : (s.raiseLevel q v).pending = s.pending := rfl
@[simp] theorem raiseLevel_mode (q v : Nat) : (s.raiseLevel q v).mode = s.mode := rfl
@[simp] theorem raiseLevel_clock (q v : Nat) : (s.raiseLevel q v).clock = s.clock := rfl
@[simp] theorem raiseLevel_pins (q v : Nat) : (s.raiseLevel q v).pins = s.pins := rfl
@[simp] theorem raiseLevel_straps (q v : Nat) : (s.raiseLevel q v).straps = s.straps := rfl
@[simp] theorem raiseLevel_sup (q v : Nat) : (s.raiseLevel q v).sup = s.sup := rfl
@[simp] theorem raiseLevel_hdr (q v : Nat) : (s.raiseLevel q v).hdr = s.hdr := rfl
@[simp] theorem raiseLevel_lastCause (q v : Nat) : (s.raiseLevel q v).lastCause = s.lastCause := rfl
@[simp] theorem raiseLevel_ckpt (q v : Nat) : (s.raiseLevel q v).ckpt = s.ckpt := rfl
@[simp] theorem raiseLevel_tb (q v : Nat) : (s.raiseLevel q v).tb = s.tb := rfl
@[simp] theorem raiseLevel_lev (q v : Nat) : (s.raiseLevel q v).lev = s.lev := rfl
@[simp] theorem raiseLevel_ev (q v : Nat) : (s.raiseLevel q v).ev = s.ev := rfl
@[simp] theorem raiseLevel_har (q v : Nat) : (s.raiseLevel q v).har = s.har := rfl
@[simp] theorem raiseLevel_store (q v : Nat) : (s.raiseLevel q v).store = s.store := rfl
@[simp] theorem raiseLevel_notes (q v : Nat) : (s.raiseLevel q v).notes = s.notes := rfl
@[simp] theorem raiseLevel_rep (q v : Nat) : (s.raiseLevel q v).rep = s.rep := rfl
@[simp] theorem raiseLevel_prn (q v : Nat) : (s.raiseLevel q v).prn = s.prn := rfl
@[simp] theorem raiseLevel_line (q v : Nat) : (s.raiseLevel q v).line = s.line := rfl
@[simp] theorem raiseLevel_ctr (q v : Nat) : (s.raiseLevel q v).ctr = s.ctr := rfl

@[simp] theorem create_pending (q : CreateRequest) : (s.create q).1.pending = s.pending := rfl
@[simp] theorem create_mode (q : CreateRequest) : (s.create q).1.mode = s.mode := rfl
@[simp] theorem create_clock (q : CreateRequest) : (s.create q).1.clock = s.clock := rfl
@[simp] theorem create_pins (q : CreateRequest) : (s.create q).1.pins = s.pins := rfl
@[simp] theorem create_straps (q : CreateRequest) : (s.create q).1.straps = s.straps := rfl
@[simp] theorem create_sup (q : CreateRequest) : (s.create q).1.sup = s.sup := rfl
@[simp] theorem create_hdr (q : CreateRequest) : (s.create q).1.hdr = s.hdr := rfl
@[simp] theorem create_lastCause (q : CreateRequest) : (s.create q).1.lastCause = s.lastCause := rfl
@[simp] theorem create_ckpt (q : CreateRequest) : (s.create q).1.ckpt = s.ckpt := rfl
@[simp] theorem create_tb (q : CreateRequest) : (s.create q).1.tb = s.tb := rfl
@[simp] theorem create_lev (q : CreateRequest) : (s.create q).1.lev = s.lev := rfl
@[simp] theorem create_ev (q : CreateRequest) : (s.create q).1.ev = s.ev := rfl
@[simp] theorem create_cap (q : CreateRequest) : (s.create q).1.cap = s.cap := rfl
@[simp] theorem create_har (q : CreateRequest) : (s.create q).1.har = s.har := rfl
@[simp] theorem create_notes (q : CreateRequest) : (s.create q).1.notes = s.notes := rfl
@[simp] theorem create_rep (q : CreateRequest) : (s.create q).1.rep = s.rep := rfl
@[simp] theorem create_prn (q : CreateRequest) : (s.create q).1.prn = s.prn := rfl
@[simp] theorem create_line (q : CreateRequest) : (s.create q).1.line = s.line := rfl

@[simp] theorem pass_pending (d : Nat) : (s.pass d).pending = s.pending := by simp only [State.pass]; split <;> rfl
@[simp] theorem pass_mode (d : Nat) : (s.pass d).mode = s.mode := by simp only [State.pass]; split <;> rfl
@[simp] theorem pass_pins (d : Nat) : (s.pass d).pins = s.pins := by simp only [State.pass]; split <;> rfl
@[simp] theorem pass_straps (d : Nat) : (s.pass d).straps = s.straps := by simp only [State.pass]; split <;> rfl
@[simp] theorem pass_sup (d : Nat) : (s.pass d).sup = s.sup := by simp only [State.pass]; split <;> rfl
@[simp] theorem pass_hdr (d : Nat) : (s.pass d).hdr = s.hdr := by simp only [State.pass]; split <;> rfl
@[simp] theorem pass_lastCause (d : Nat) : (s.pass d).lastCause = s.lastCause := by simp only [State.pass]; split <;> rfl
@[simp] theorem pass_ckpt (d : Nat) : (s.pass d).ckpt = s.ckpt := by simp only [State.pass]; split <;> rfl
@[simp] theorem pass_tb (d : Nat) : (s.pass d).tb = s.tb := by simp only [State.pass]; split <;> rfl
@[simp] theorem pass_lev (d : Nat) : (s.pass d).lev = s.lev := by simp only [State.pass]; split <;> rfl
@[simp] theorem pass_ev (d : Nat) : (s.pass d).ev = s.ev := by simp only [State.pass]; split <;> rfl
@[simp] theorem pass_cap (d : Nat) : (s.pass d).cap = s.cap := by simp only [State.pass]; split <;> rfl
@[simp] theorem pass_har (d : Nat) : (s.pass d).har = s.har := by simp only [State.pass]; split <;> rfl
@[simp] theorem pass_store (d : Nat) : (s.pass d).store = s.store := by simp only [State.pass]; split <;> rfl
@[simp] theorem pass_rep (d : Nat) : (s.pass d).rep = s.rep := by simp only [State.pass]; split <;> rfl
@[simp] theorem pass_prn (d : Nat) : (s.pass d).prn = s.prn := by simp only [State.pass]; split <;> rfl
@[simp] theorem pass_line (d : Nat) : (s.pass d).line = s.line := by simp only [State.pass]; split <;> rfl
@[simp] theorem pass_ctr (d : Nat) : (s.pass d).ctr = s.ctr := by simp only [State.pass]; split <;> rfl

@[simp] theorem passTo_pending (t : Nat) : (s.passTo t).pending = s.pending := by simp only [State.passTo]; split <;> simp
@[simp] theorem passTo_mode (t : Nat) : (s.passTo t).mode = s.mode := by simp only [State.passTo]; split <;> simp
@[simp] theorem passTo_pins (t : Nat) : (s.passTo t).pins = s.pins := by simp only [State.passTo]; split <;> simp
@[simp] theorem passTo_straps (t : Nat) : (s.passTo t).straps = s.straps := by simp only [State.passTo]; split <;> simp
@[simp] theorem passTo_sup (t : Nat) : (s.passTo t).sup = s.sup := by simp only [State.passTo]; split <;> simp
@[simp] theorem passTo_hdr (t : Nat) : (s.passTo t).hdr = s.hdr := by simp only [State.passTo]; split <;> simp
@[simp] theorem passTo_lastCause (t : Nat) : (s.passTo t).lastCause = s.lastCause := by simp only [State.passTo]; split <;> simp
@[simp] theorem passTo_ckpt (t : Nat) : (s.passTo t).ckpt = s.ckpt := by simp only [State.passTo]; split <;> simp
@[simp] theorem passTo_tb (t : Nat) : (s.passTo t).tb = s.tb := by simp only [State.passTo]; split <;> simp
@[simp] theorem passTo_lev (t : Nat) : (s.passTo t).lev = s.lev := by simp only [State.passTo]; split <;> simp
@[simp] theorem passTo_ev (t : Nat) : (s.passTo t).ev = s.ev := by simp only [State.passTo]; split <;> simp
@[simp] theorem passTo_cap (t : Nat) : (s.passTo t).cap = s.cap := by simp only [State.passTo]; split <;> simp
@[simp] theorem passTo_har (t : Nat) : (s.passTo t).har = s.har := by simp only [State.passTo]; split <;> simp
@[simp] theorem passTo_store (t : Nat) : (s.passTo t).store = s.store := by simp only [State.passTo]; split <;> simp
@[simp] theorem passTo_rep (t : Nat) : (s.passTo t).rep = s.rep := by simp only [State.passTo]; split <;> simp
@[simp] theorem passTo_prn (t : Nat) : (s.passTo t).prn = s.prn := by simp only [State.passTo]; split <;> simp
@[simp] theorem passTo_line (t : Nat) : (s.passTo t).line = s.line := by simp only [State.passTo]; split <;> simp
@[simp] theorem passTo_ctr (t : Nat) : (s.passTo t).ctr = s.ctr := by simp only [State.passTo]; split <;> simp

@[simp] theorem passToSurvey_pending (t : Nat) : (s.passToSurvey t).pending = s.pending := by simp only [State.passToSurvey]; split <;> simp
@[simp] theorem passToSurvey_mode (t : Nat) : (s.passToSurvey t).mode = s.mode := by simp only [State.passToSurvey]; split <;> simp
@[simp] theorem passToSurvey_pins (t : Nat) : (s.passToSurvey t).pins = s.pins := by simp only [State.passToSurvey]; split <;> simp
@[simp] theorem passToSurvey_straps (t : Nat) : (s.passToSurvey t).straps = s.straps := by simp only [State.passToSurvey]; split <;> simp
@[simp] theorem passToSurvey_sup (t : Nat) : (s.passToSurvey t).sup = s.sup := by simp only [State.passToSurvey]; split <;> simp
@[simp] theorem passToSurvey_hdr (t : Nat) : (s.passToSurvey t).hdr = s.hdr := by simp only [State.passToSurvey]; split <;> simp
@[simp] theorem passToSurvey_lastCause (t : Nat) : (s.passToSurvey t).lastCause = s.lastCause := by simp only [State.passToSurvey]; split <;> simp
@[simp] theorem passToSurvey_ckpt (t : Nat) : (s.passToSurvey t).ckpt = s.ckpt := by simp only [State.passToSurvey]; split <;> simp
@[simp] theorem passToSurvey_tb (t : Nat) : (s.passToSurvey t).tb = s.tb := by simp only [State.passToSurvey]; split <;> simp
@[simp] theorem passToSurvey_lev (t : Nat) : (s.passToSurvey t).lev = s.lev := by simp only [State.passToSurvey]; split <;> simp
@[simp] theorem passToSurvey_ev (t : Nat) : (s.passToSurvey t).ev = s.ev := by simp only [State.passToSurvey]; split <;> simp
@[simp] theorem passToSurvey_cap (t : Nat) : (s.passToSurvey t).cap = s.cap := by simp only [State.passToSurvey]; split <;> simp
@[simp] theorem passToSurvey_har (t : Nat) : (s.passToSurvey t).har = s.har := by simp only [State.passToSurvey]; split <;> simp
@[simp] theorem passToSurvey_store (t : Nat) : (s.passToSurvey t).store = s.store := by simp only [State.passToSurvey]; split <;> simp
@[simp] theorem passToSurvey_rep (t : Nat) : (s.passToSurvey t).rep = s.rep := by simp only [State.passToSurvey]; split <;> simp
@[simp] theorem passToSurvey_prn (t : Nat) : (s.passToSurvey t).prn = s.prn := by simp only [State.passToSurvey]; split <;> simp
@[simp] theorem passToSurvey_line (t : Nat) : (s.passToSurvey t).line = s.line := by simp only [State.passToSurvey]; split <;> simp
@[simp] theorem passToSurvey_ctr (t : Nat) : (s.passToSurvey t).ctr = s.ctr := by simp only [State.passToSurvey]; split <;> simp

@[simp] theorem tick_pending : (s.tick).pending = s.pending := by simp only [State.tick]; split <;> simp
@[simp] theorem tick_mode : (s.tick).mode = s.mode := by simp only [State.tick]; split <;> simp
@[simp] theorem tick_pins : (s.tick).pins = s.pins := by simp only [State.tick]; split <;> simp
@[simp] theorem tick_straps : (s.tick).straps = s.straps := by simp only [State.tick]; split <;> simp
@[simp] theorem tick_sup : (s.tick).sup = s.sup := by simp only [State.tick]; split <;> simp
@[simp] theorem tick_hdr : (s.tick).hdr = s.hdr := by simp only [State.tick]; split <;> simp
@[simp] theorem tick_lastCause : (s.tick).lastCause = s.lastCause := by simp only [State.tick]; split <;> simp
@[simp] theorem tick_ckpt : (s.tick).ckpt = s.ckpt := by simp only [State.tick]; split <;> simp
@[simp] theorem tick_tb : (s.tick).tb = s.tb := by simp only [State.tick]; split <;> simp
@[simp] theorem tick_lev : (s.tick).lev = s.lev := by simp only [State.tick]; split <;> simp
@[simp] theorem tick_ev : (s.tick).ev = s.ev := by simp only [State.tick]; split <;> simp
@[simp] theorem tick_cap : (s.tick).cap = s.cap := by simp only [State.tick]; split <;> simp
@[simp] theorem tick_har : (s.tick).har = s.har := by simp only [State.tick]; split <;> simp
@[simp] theorem tick_store : (s.tick).store = s.store := by simp only [State.tick]; split <;> simp
@[simp] theorem tick_rep : (s.tick).rep = s.rep := by simp only [State.tick]; split <;> simp
@[simp] theorem tick_prn : (s.tick).prn = s.prn := by simp only [State.tick]; split <;> simp
@[simp] theorem tick_line : (s.tick).line = s.line := by simp only [State.tick]; split <;> simp
@[simp] theorem tick_ctr : (s.tick).ctr = s.ctr := by simp only [State.tick]; split <;> simp

@[simp] theorem offer_pending (p : Nat × Nat) : (s.offer p).pending = s.pending := by simp only [State.offer]; (repeat' split) <;> rfl
@[simp] theorem offer_mode (p : Nat × Nat) : (s.offer p).mode = s.mode := by simp only [State.offer]; (repeat' split) <;> rfl
@[simp] theorem offer_clock (p : Nat × Nat) : (s.offer p).clock = s.clock := by simp only [State.offer]; (repeat' split) <;> rfl
@[simp] theorem offer_pins (p : Nat × Nat) : (s.offer p).pins = s.pins := by simp only [State.offer]; (repeat' split) <;> rfl
@[simp] theorem offer_straps (p : Nat × Nat) : (s.offer p).straps = s.straps := by simp only [State.offer]; (repeat' split) <;> rfl
@[simp] theorem offer_sup (p : Nat × Nat) : (s.offer p).sup = s.sup := by simp only [State.offer]; (repeat' split) <;> rfl
@[simp] theorem offer_hdr (p : Nat × Nat) : (s.offer p).hdr = s.hdr := by simp only [State.offer]; (repeat' split) <;> rfl
@[simp] theorem offer_lastCause (p : Nat × Nat) : (s.offer p).lastCause = s.lastCause := by simp only [State.offer]; (repeat' split) <;> rfl
@[simp] theorem offer_ckpt (p : Nat × Nat) : (s.offer p).ckpt = s.ckpt := by simp only [State.offer]; (repeat' split) <;> rfl
@[simp] theorem offer_tb (p : Nat × Nat) : (s.offer p).tb = s.tb := by simp only [State.offer]; (repeat' split) <;> rfl
@[simp] theorem offer_lev (p : Nat × Nat) : (s.offer p).lev = s.lev := by simp only [State.offer]; (repeat' split) <;> rfl
@[simp] theorem offer_cap (p : Nat × Nat) : (s.offer p).cap = s.cap := by simp only [State.offer]; (repeat' split) <;> rfl
@[simp] theorem offer_har (p : Nat × Nat) : (s.offer p).har = s.har := by simp only [State.offer]; (repeat' split) <;> rfl
@[simp] theorem offer_store (p : Nat × Nat) : (s.offer p).store = s.store := by simp only [State.offer]; (repeat' split) <;> rfl
@[simp] theorem offer_notes (p : Nat × Nat) : (s.offer p).notes = s.notes := by simp only [State.offer]; (repeat' split) <;> rfl
@[simp] theorem offer_rep (p : Nat × Nat) : (s.offer p).rep = s.rep := by simp only [State.offer]; (repeat' split) <;> rfl
@[simp] theorem offer_prn (p : Nat × Nat) : (s.offer p).prn = s.prn := by simp only [State.offer]; (repeat' split) <;> rfl
@[simp] theorem offer_line (p : Nat × Nat) : (s.offer p).line = s.line := by simp only [State.offer]; (repeat' split) <;> rfl

@[simp] theorem storeOnePage_pending (g : Tag) (n : Option Nat) (b : List Byte) : (s.storeOnePage g n b).1.pending = s.pending := by simp only [State.storeOnePage]; split <;> simp
@[simp] theorem storeOnePage_mode (g : Tag) (n : Option Nat) (b : List Byte) : (s.storeOnePage g n b).1.mode = s.mode := by simp only [State.storeOnePage]; split <;> simp
@[simp] theorem storeOnePage_clock (g : Tag) (n : Option Nat) (b : List Byte) : (s.storeOnePage g n b).1.clock = s.clock := by simp only [State.storeOnePage]; split <;> simp
@[simp] theorem storeOnePage_pins (g : Tag) (n : Option Nat) (b : List Byte) : (s.storeOnePage g n b).1.pins = s.pins := by simp only [State.storeOnePage]; split <;> simp
@[simp] theorem storeOnePage_straps (g : Tag) (n : Option Nat) (b : List Byte) : (s.storeOnePage g n b).1.straps = s.straps := by simp only [State.storeOnePage]; split <;> simp
@[simp] theorem storeOnePage_sup (g : Tag) (n : Option Nat) (b : List Byte) : (s.storeOnePage g n b).1.sup = s.sup := by simp only [State.storeOnePage]; split <;> simp
@[simp] theorem storeOnePage_hdr (g : Tag) (n : Option Nat) (b : List Byte) : (s.storeOnePage g n b).1.hdr = s.hdr := by simp only [State.storeOnePage]; split <;> simp
@[simp] theorem storeOnePage_lastCause (g : Tag) (n : Option Nat) (b : List Byte) : (s.storeOnePage g n b).1.lastCause = s.lastCause := by simp only [State.storeOnePage]; split <;> simp
@[simp] theorem storeOnePage_ckpt (g : Tag) (n : Option Nat) (b : List Byte) : (s.storeOnePage g n b).1.ckpt = s.ckpt := by simp only [State.storeOnePage]; split <;> simp
@[simp] theorem storeOnePage_tb (g : Tag) (n : Option Nat) (b : List Byte) : (s.storeOnePage g n b).1.tb = s.tb := by simp only [State.storeOnePage]; split <;> simp
@[simp] theorem storeOnePage_lev (g : Tag) (n : Option Nat) (b : List Byte) : (s.storeOnePage g n b).1.lev = s.lev := by simp only [State.storeOnePage]; split <;> simp
@[simp] theorem storeOnePage_ev (g : Tag) (n : Option Nat) (b : List Byte) : (s.storeOnePage g n b).1.ev = s.ev := by simp only [State.storeOnePage]; split <;> simp
@[simp] theorem storeOnePage_cap (g : Tag) (n : Option Nat) (b : List Byte) : (s.storeOnePage g n b).1.cap = s.cap := by simp only [State.storeOnePage]; split <;> simp
@[simp] theorem storeOnePage_har (g : Tag) (n : Option Nat) (b : List Byte) : (s.storeOnePage g n b).1.har = s.har := by simp only [State.storeOnePage]; split <;> simp
@[simp] theorem storeOnePage_notes (g : Tag) (n : Option Nat) (b : List Byte) : (s.storeOnePage g n b).1.notes = s.notes := by simp only [State.storeOnePage]; split <;> simp
@[simp] theorem storeOnePage_rep (g : Tag) (n : Option Nat) (b : List Byte) : (s.storeOnePage g n b).1.rep = s.rep := by simp only [State.storeOnePage]; split <;> simp
@[simp] theorem storeOnePage_prn (g : Tag) (n : Option Nat) (b : List Byte) : (s.storeOnePage g n b).1.prn = s.prn := by simp only [State.storeOnePage]; split <;> simp
@[simp] theorem storeOnePage_line (g : Tag) (n : Option Nat) (b : List Byte) : (s.storeOnePage g n b).1.line = s.line := by simp only [State.storeOnePage]; split <;> simp

@[simp] theorem takeNote_pending (n : Note) (k : Nat) : (s.takeNote n k).pending = s.pending := by simp only [State.takeNote]; split <;> simp
@[simp] theorem takeNote_mode (n : Note) (k : Nat) : (s.takeNote n k).mode = s.mode := by simp only [State.takeNote]; split <;> simp
@[simp] theorem takeNote_clock (n : Note) (k : Nat) : (s.takeNote n k).clock = s.clock := by simp only [State.takeNote]; split <;> simp
@[simp] theorem takeNote_pins (n : Note) (k : Nat) : (s.takeNote n k).pins = s.pins := by simp only [State.takeNote]; split <;> simp
@[simp] theorem takeNote_straps (n : Note) (k : Nat) : (s.takeNote n k).straps = s.straps := by simp only [State.takeNote]; split <;> simp
@[simp] theorem takeNote_sup (n : Note) (k : Nat) : (s.takeNote n k).sup = s.sup := by simp only [State.takeNote]; split <;> simp
@[simp] theorem takeNote_hdr (n : Note) (k : Nat) : (s.takeNote n k).hdr = s.hdr := by simp only [State.takeNote]; split <;> simp
@[simp] theorem takeNote_lastCause (n : Note) (k : Nat) : (s.takeNote n k).lastCause = s.lastCause := by simp only [State.takeNote]; split <;> simp
@[simp] theorem takeNote_ckpt (n : Note) (k : Nat) : (s.takeNote n k).ckpt = s.ckpt := by simp only [State.takeNote]; split <;> simp
@[simp] theorem takeNote_tb (n : Note) (k : Nat) : (s.takeNote n k).tb = s.tb := by simp only [State.takeNote]; split <;> simp
@[simp] theorem takeNote_lev (n : Note) (k : Nat) : (s.takeNote n k).lev = s.lev := by simp only [State.takeNote]; split <;> simp
@[simp] theorem takeNote_ev (n : Note) (k : Nat) : (s.takeNote n k).ev = s.ev := by simp only [State.takeNote]; split <;> simp
@[simp] theorem takeNote_cap (n : Note) (k : Nat) : (s.takeNote n k).cap = s.cap := by simp only [State.takeNote]; split <;> simp
@[simp] theorem takeNote_har (n : Note) (k : Nat) : (s.takeNote n k).har = s.har := by simp only [State.takeNote]; split <;> simp
@[simp] theorem takeNote_rep (n : Note) (k : Nat) : (s.takeNote n k).rep = s.rep := by simp only [State.takeNote]; split <;> simp
@[simp] theorem takeNote_prn (n : Note) (k : Nat) : (s.takeNote n k).prn = s.prn := by simp only [State.takeNote]; split <;> simp
@[simp] theorem takeNote_line (n : Note) (k : Nat) : (s.takeNote n k).line = s.line := by simp only [State.takeNote]; split <;> simp

@[simp] theorem sealEvent_pending (o t : Nat) : (s.sealEvent o t).pending = s.pending := by simp only [State.sealEvent]; (repeat' split) <;> simp
@[simp] theorem sealEvent_mode (o t : Nat) : (s.sealEvent o t).mode = s.mode := by simp only [State.sealEvent]; (repeat' split) <;> simp
@[simp] theorem sealEvent_clock (o t : Nat) : (s.sealEvent o t).clock = s.clock := by simp only [State.sealEvent]; (repeat' split) <;> simp
@[simp] theorem sealEvent_pins (o t : Nat) : (s.sealEvent o t).pins = s.pins := by simp only [State.sealEvent]; (repeat' split) <;> simp
@[simp] theorem sealEvent_straps (o t : Nat) : (s.sealEvent o t).straps = s.straps := by simp only [State.sealEvent]; (repeat' split) <;> simp
@[simp] theorem sealEvent_sup (o t : Nat) : (s.sealEvent o t).sup = s.sup := by simp only [State.sealEvent]; (repeat' split) <;> simp
@[simp] theorem sealEvent_hdr (o t : Nat) : (s.sealEvent o t).hdr = s.hdr := by simp only [State.sealEvent]; (repeat' split) <;> simp
@[simp] theorem sealEvent_lastCause (o t : Nat) : (s.sealEvent o t).lastCause = s.lastCause := by simp only [State.sealEvent]; (repeat' split) <;> simp
@[simp] theorem sealEvent_ckpt (o t : Nat) : (s.sealEvent o t).ckpt = s.ckpt := by simp only [State.sealEvent]; (repeat' split) <;> simp
@[simp] theorem sealEvent_tb (o t : Nat) : (s.sealEvent o t).tb = s.tb := by simp only [State.sealEvent]; (repeat' split) <;> simp
@[simp] theorem sealEvent_lev (o t : Nat) : (s.sealEvent o t).lev = s.lev := by simp only [State.sealEvent]; (repeat' split) <;> simp
@[simp] theorem sealEvent_cap (o t : Nat) : (s.sealEvent o t).cap = s.cap := by simp only [State.sealEvent]; (repeat' split) <;> simp
@[simp] theorem sealEvent_har (o t : Nat) : (s.sealEvent o t).har = s.har := by simp only [State.sealEvent]; (repeat' split) <;> simp
@[simp] theorem sealEvent_notes (o t : Nat) : (s.sealEvent o t).notes = s.notes := by simp only [State.sealEvent]; (repeat' split) <;> simp
@[simp] theorem sealEvent_rep (o t : Nat) : (s.sealEvent o t).rep = s.rep := by simp only [State.sealEvent]; (repeat' split) <;> simp
@[simp] theorem sealEvent_prn (o t : Nat) : (s.sealEvent o t).prn = s.prn := by simp only [State.sealEvent]; (repeat' split) <;> simp
@[simp] theorem sealEvent_line (o t : Nat) : (s.sealEvent o t).line = s.line := by simp only [State.sealEvent]; (repeat' split) <;> simp

@[simp] theorem sealInterval_pending (b : Bool) : (s.sealInterval b).pending = s.pending := by simp only [State.sealInterval]; (repeat' split) <;> simp
@[simp] theorem sealInterval_mode (b : Bool) : (s.sealInterval b).mode = s.mode := by simp only [State.sealInterval]; (repeat' split) <;> simp
@[simp] theorem sealInterval_clock (b : Bool) : (s.sealInterval b).clock = s.clock := by simp only [State.sealInterval]; (repeat' split) <;> simp
@[simp] theorem sealInterval_pins (b : Bool) : (s.sealInterval b).pins = s.pins := by simp only [State.sealInterval]; (repeat' split) <;> simp
@[simp] theorem sealInterval_straps (b : Bool) : (s.sealInterval b).straps = s.straps := by simp only [State.sealInterval]; (repeat' split) <;> simp
@[simp] theorem sealInterval_sup (b : Bool) : (s.sealInterval b).sup = s.sup := by simp only [State.sealInterval]; (repeat' split) <;> simp
@[simp] theorem sealInterval_hdr (b : Bool) : (s.sealInterval b).hdr = s.hdr := by simp only [State.sealInterval]; (repeat' split) <;> simp
@[simp] theorem sealInterval_lastCause (b : Bool) : (s.sealInterval b).lastCause = s.lastCause := by simp only [State.sealInterval]; (repeat' split) <;> simp
@[simp] theorem sealInterval_ckpt (b : Bool) : (s.sealInterval b).ckpt = s.ckpt := by simp only [State.sealInterval]; (repeat' split) <;> simp
@[simp] theorem sealInterval_tb (b : Bool) : (s.sealInterval b).tb = s.tb := by simp only [State.sealInterval]; (repeat' split) <;> simp
@[simp] theorem sealInterval_lev (b : Bool) : (s.sealInterval b).lev = s.lev := by simp only [State.sealInterval]; (repeat' split) <;> simp
@[simp] theorem sealInterval_ev (b : Bool) : (s.sealInterval b).ev = s.ev := by simp only [State.sealInterval]; (repeat' split) <;> simp
@[simp] theorem sealInterval_cap (b : Bool) : (s.sealInterval b).cap = s.cap := by simp only [State.sealInterval]; (repeat' split) <;> simp
@[simp] theorem sealInterval_notes (b : Bool) : (s.sealInterval b).notes = s.notes := by simp only [State.sealInterval]; (repeat' split) <;> simp
@[simp] theorem sealInterval_rep (b : Bool) : (s.sealInterval b).rep = s.rep := by simp only [State.sealInterval]; (repeat' split) <;> simp
@[simp] theorem sealInterval_prn (b : Bool) : (s.sealInterval b).prn = s.prn := by simp only [State.sealInterval]; (repeat' split) <;> simp
@[simp] theorem sealInterval_line (b : Bool) : (s.sealInterval b).line = s.line := by simp only [State.sealInterval]; (repeat' split) <;> simp

@[simp] theorem stopHarmonic_pending (b : Bool) : (s.stopHarmonic b).pending = s.pending := by simp [State.stopHarmonic]
@[simp] theorem stopHarmonic_mode (b : Bool) : (s.stopHarmonic b).mode = s.mode := by simp [State.stopHarmonic]
@[simp] theorem stopHarmonic_clock (b : Bool) : (s.stopHarmonic b).clock = s.clock := by simp [State.stopHarmonic]
@[simp] theorem stopHarmonic_pins (b : Bool) : (s.stopHarmonic b).pins = s.pins := by simp [State.stopHarmonic]
@[simp] theorem stopHarmonic_straps (b : Bool) : (s.stopHarmonic b).straps = s.straps := by simp [State.stopHarmonic]
@[simp] theorem stopHarmonic_sup (b : Bool) : (s.stopHarmonic b).sup = s.sup := by simp [State.stopHarmonic]
@[simp] theorem stopHarmonic_hdr (b : Bool) : (s.stopHarmonic b).hdr = s.hdr := by simp [State.stopHarmonic]
@[simp] theorem stopHarmonic_lastCause (b : Bool) : (s.stopHarmonic b).lastCause = s.lastCause := by simp [State.stopHarmonic]
@[simp] theorem stopHarmonic_ckpt (b : Bool) : (s.stopHarmonic b).ckpt = s.ckpt := by simp [State.stopHarmonic]
@[simp] theorem stopHarmonic_tb (b : Bool) : (s.stopHarmonic b).tb = s.tb := by simp [State.stopHarmonic]
@[simp] theorem stopHarmonic_lev (b : Bool) : (s.stopHarmonic b).lev = s.lev := by simp [State.stopHarmonic]
@[simp] theorem stopHarmonic_ev (b : Bool) : (s.stopHarmonic b).ev = s.ev := by simp [State.stopHarmonic]
@[simp] theorem stopHarmonic_cap (b : Bool) : (s.stopHarmonic b).cap = s.cap := by simp [State.stopHarmonic]
@[simp] theorem stopHarmonic_notes (b : Bool) : (s.stopHarmonic b).notes = s.notes := by simp [State.stopHarmonic]
@[simp] theorem stopHarmonic_rep (b : Bool) : (s.stopHarmonic b).rep = s.rep := by simp [State.stopHarmonic]
@[simp] theorem stopHarmonic_prn (b : Bool) : (s.stopHarmonic b).prn = s.prn := by simp [State.stopHarmonic]
@[simp] theorem stopHarmonic_line (b : Bool) : (s.stopHarmonic b).line = s.line := by simp [State.stopHarmonic]

@[simp] theorem settle_pending (b : Block) : (s.settle b).pending = s.pending := by simp only [State.settle]; (repeat' split) <;> simp
@[simp] theorem settle_mode (b : Block) : (s.settle b).mode = s.mode := by simp only [State.settle]; (repeat' split) <;> simp
@[simp] theorem settle_clock (b : Block) : (s.settle b).clock = s.clock := by simp only [State.settle]; (repeat' split) <;> simp
@[simp] theorem settle_pins (b : Block) : (s.settle b).pins = s.pins := by simp only [State.settle]; (repeat' split) <;> simp
@[simp] theorem settle_straps (b : Block) : (s.settle b).straps = s.straps := by simp only [State.settle]; (repeat' split) <;> simp
@[simp] theorem settle_sup (b : Block) : (s.settle b).sup = s.sup := by simp only [State.settle]; (repeat' split) <;> simp
@[simp] theorem settle_hdr (b : Block) : (s.settle b).hdr = s.hdr := by simp only [State.settle]; (repeat' split) <;> simp
@[simp] theorem settle_lastCause (b : Block) : (s.settle b).lastCause = s.lastCause := by simp only [State.settle]; (repeat' split) <;> simp
@[simp] theorem settle_ckpt (b : Block) : (s.settle b).ckpt = s.ckpt := by simp only [State.settle]; (repeat' split) <;> simp
@[simp] theorem settle_tb (b : Block) : (s.settle b).tb = s.tb := by simp only [State.settle]; (repeat' split) <;> simp
@[simp] theorem settle_lev (b : Block) : (s.settle b).lev = s.lev := by simp only [State.settle]; (repeat' split) <;> simp
@[simp] theorem settle_ev (b : Block) : (s.settle b).ev = s.ev := by simp only [State.settle]; (repeat' split) <;> simp
@[simp] theorem settle_cap (b : Block) : (s.settle b).cap = s.cap := by simp only [State.settle]; (repeat' split) <;> simp
@[simp] theorem settle_notes (b : Block) : (s.settle b).notes = s.notes := by simp only [State.settle]; (repeat' split) <;> simp
@[simp] theorem settle_rep (b : Block) : (s.settle b).rep = s.rep := by simp only [State.settle]; (repeat' split) <;> simp
@[simp] theorem settle_prn (b : Block) : (s.settle b).prn = s.prn := by simp only [State.settle]; (repeat' split) <;> simp
@[simp] theorem settle_line (b : Block) : (s.settle b).line = s.line := by simp only [State.settle]; (repeat' split) <;> simp

@[simp] theorem trySettle_pending : (s.trySettle).pending = s.pending := by simp only [State.trySettle]; (repeat' split) <;> simp
@[simp] theorem trySettle_mode : (s.trySettle).mode = s.mode := by simp only [State.trySettle]; (repeat' split) <;> simp
@[simp] theorem trySettle_clock : (s.trySettle).clock = s.clock := by simp only [State.trySettle]; (repeat' split) <;> simp
@[simp] theorem trySettle_pins : (s.trySettle).pins = s.pins := by simp only [State.trySettle]; (repeat' split) <;> simp
@[simp] theorem trySettle_straps : (s.trySettle).straps = s.straps := by simp only [State.trySettle]; (repeat' split) <;> simp
@[simp] theorem trySettle_sup : (s.trySettle).sup = s.sup := by simp only [State.trySettle]; (repeat' split) <;> simp
@[simp] theorem trySettle_hdr : (s.trySettle).hdr = s.hdr := by simp only [State.trySettle]; (repeat' split) <;> simp
@[simp] theorem trySettle_lastCause : (s.trySettle).lastCause = s.lastCause := by simp only [State.trySettle]; (repeat' split) <;> simp
@[simp] theorem trySettle_ckpt : (s.trySettle).ckpt = s.ckpt := by simp only [State.trySettle]; (repeat' split) <;> simp
@[simp] theorem trySettle_tb : (s.trySettle).tb = s.tb := by simp only [State.trySettle]; (repeat' split) <;> simp
@[simp] theorem trySettle_lev : (s.trySettle).lev = s.lev := by simp only [State.trySettle]; (repeat' split) <;> simp
@[simp] theorem trySettle_ev : (s.trySettle).ev = s.ev := by simp only [State.trySettle]; (repeat' split) <;> simp
@[simp] theorem trySettle_cap : (s.trySettle).cap = s.cap := by simp only [State.trySettle]; (repeat' split) <;> simp
@[simp] theorem trySettle_notes : (s.trySettle).notes = s.notes := by simp only [State.trySettle]; (repeat' split) <;> simp
@[simp] theorem trySettle_rep : (s.trySettle).rep = s.rep := by simp only [State.trySettle]; (repeat' split) <;> simp
@[simp] theorem trySettle_prn : (s.trySettle).prn = s.prn := by simp only [State.trySettle]; (repeat' split) <;> simp
@[simp] theorem trySettle_line : (s.trySettle).line = s.line := by simp only [State.trySettle]; (repeat' split) <;> simp

@[simp] theorem forceSettle_pending : (s.forceSettle).pending = s.pending := by simp only [State.forceSettle]; split <;> simp
@[simp] theorem forceSettle_mode : (s.forceSettle).mode = s.mode := by simp only [State.forceSettle]; split <;> simp
@[simp] theorem forceSettle_clock : (s.forceSettle).clock = s.clock := by simp only [State.forceSettle]; split <;> simp
@[simp] theorem forceSettle_pins : (s.forceSettle).pins = s.pins := by simp only [State.forceSettle]; split <;> simp
@[simp] theorem forceSettle_straps : (s.forceSettle).straps = s.straps := by simp only [State.forceSettle]; split <;> simp
@[simp] theorem forceSettle_sup : (s.forceSettle).sup = s.sup := by simp only [State.forceSettle]; split <;> simp
@[simp] theorem forceSettle_hdr : (s.forceSettle).hdr = s.hdr := by simp only [State.forceSettle]; split <;> simp
@[simp] theorem forceSettle_lastCause : (s.forceSettle).lastCause = s.lastCause := by simp only [State.forceSettle]; split <;> simp
@[simp] theorem forceSettle_ckpt : (s.forceSettle).ckpt = s.ckpt := by simp only [State.forceSettle]; split <;> simp
@[simp] theorem forceSettle_tb : (s.forceSettle).tb = s.tb := by simp only [State.forceSettle]; split <;> simp
@[simp] theorem forceSettle_lev : (s.forceSettle).lev = s.lev := by simp only [State.forceSettle]; split <;> simp
@[simp] theorem forceSettle_ev : (s.forceSettle).ev = s.ev := by simp only [State.forceSettle]; split <;> simp
@[simp] theorem forceSettle_cap : (s.forceSettle).cap = s.cap := by simp only [State.forceSettle]; split <;> simp
@[simp] theorem forceSettle_notes : (s.forceSettle).notes = s.notes := by simp only [State.forceSettle]; split <;> simp
@[simp] theorem forceSettle_rep : (s.forceSettle).rep = s.rep := by simp only [State.forceSettle]; split <;> simp
@[simp] theorem forceSettle_prn : (s.forceSettle).prn = s.prn := by simp only [State.forceSettle]; split <;> simp
@[simp] theorem forceSettle_line : (s.forceSettle).line = s.line := by simp only [State.forceSettle]; split <;> simp

@[simp] theorem fillBlock_pending : (s.fillBlock).pending = s.pending := by simp only [State.fillBlock]; (repeat' split) <;> simp
@[simp] theorem fillBlock_mode : (s.fillBlock).mode = s.mode := by simp only [State.fillBlock]; (repeat' split) <;> simp
@[simp] theorem fillBlock_clock : (s.fillBlock).clock = s.clock := by simp only [State.fillBlock]; (repeat' split) <;> simp
@[simp] theorem fillBlock_pins : (s.fillBlock).pins = s.pins := by simp only [State.fillBlock]; (repeat' split) <;> simp
@[simp] theorem fillBlock_straps : (s.fillBlock).straps = s.straps := by simp only [State.fillBlock]; (repeat' split) <;> simp
@[simp] theorem fillBlock_sup : (s.fillBlock).sup = s.sup := by simp only [State.fillBlock]; (repeat' split) <;> simp
@[simp] theorem fillBlock_hdr : (s.fillBlock).hdr = s.hdr := by simp only [State.fillBlock]; (repeat' split) <;> simp
@[simp] theorem fillBlock_lastCause : (s.fillBlock).lastCause = s.lastCause := by simp only [State.fillBlock]; (repeat' split) <;> simp
@[simp] theorem fillBlock_ckpt : (s.fillBlock).ckpt = s.ckpt := by simp only [State.fillBlock]; (repeat' split) <;> simp
@[simp] theorem fillBlock_tb : (s.fillBlock).tb = s.tb := by simp only [State.fillBlock]; (repeat' split) <;> simp
@[simp] theorem fillBlock_lev : (s.fillBlock).lev = s.lev := by simp only [State.fillBlock]; (repeat' split) <;> simp
@[simp] theorem fillBlock_ev : (s.fillBlock).ev = s.ev := by simp only [State.fillBlock]; (repeat' split) <;> simp
@[simp] theorem fillBlock_cap : (s.fillBlock).cap = s.cap := by simp only [State.fillBlock]; (repeat' split) <;> simp
@[simp] theorem fillBlock_notes : (s.fillBlock).notes = s.notes := by simp only [State.fillBlock]; (repeat' split) <;> simp
@[simp] theorem fillBlock_rep : (s.fillBlock).rep = s.rep := by simp only [State.fillBlock]; (repeat' split) <;> simp
@[simp] theorem fillBlock_prn : (s.fillBlock).prn = s.prn := by simp only [State.fillBlock]; (repeat' split) <;> simp
@[simp] theorem fillBlock_line : (s.fillBlock).line = s.line := by simp only [State.fillBlock]; (repeat' split) <;> simp

@[simp] theorem analyse_pending (x : List Int) (i : Nat) (b : TbState) : (s.analyse x i b).pending = s.pending := by simp [State.analyse]
@[simp] theorem analyse_mode (x : List Int) (i : Nat) (b : TbState) : (s.analyse x i b).mode = s.mode := by simp [State.analyse]
@[simp] theorem analyse_clock (x : List Int) (i : Nat) (b : TbState) : (s.analyse x i b).clock = s.clock := by simp [State.analyse]
@[simp] theorem analyse_pins (x : List Int) (i : Nat) (b : TbState) : (s.analyse x i b).pins = s.pins := by simp [State.analyse]
@[simp] theorem analyse_straps (x : List Int) (i : Nat) (b : TbState) : (s.analyse x i b).straps = s.straps := by simp [State.analyse]
@[simp] theorem analyse_sup (x : List Int) (i : Nat) (b : TbState) : (s.analyse x i b).sup = s.sup := by simp [State.analyse]
@[simp] theorem analyse_hdr (x : List Int) (i : Nat) (b : TbState) : (s.analyse x i b).hdr = s.hdr := by simp [State.analyse]
@[simp] theorem analyse_lastCause (x : List Int) (i : Nat) (b : TbState) : (s.analyse x i b).lastCause = s.lastCause := by simp [State.analyse]
@[simp] theorem analyse_ckpt (x : List Int) (i : Nat) (b : TbState) : (s.analyse x i b).ckpt = s.ckpt := by simp [State.analyse]
@[simp] theorem analyse_tb (x : List Int) (i : Nat) (b : TbState) : (s.analyse x i b).tb = s.tb := by simp [State.analyse]
@[simp] theorem analyse_lev (x : List Int) (i : Nat) (b : TbState) : (s.analyse x i b).lev = s.lev := by simp [State.analyse]
@[simp] theorem analyse_ev (x : List Int) (i : Nat) (b : TbState) : (s.analyse x i b).ev = s.ev := by simp [State.analyse]
@[simp] theorem analyse_cap (x : List Int) (i : Nat) (b : TbState) : (s.analyse x i b).cap = s.cap := by simp [State.analyse]
@[simp] theorem analyse_notes (x : List Int) (i : Nat) (b : TbState) : (s.analyse x i b).notes = s.notes := by simp [State.analyse]
@[simp] theorem analyse_rep (x : List Int) (i : Nat) (b : TbState) : (s.analyse x i b).rep = s.rep := by simp [State.analyse]
@[simp] theorem analyse_prn (x : List Int) (i : Nat) (b : TbState) : (s.analyse x i b).prn = s.prn := by simp [State.analyse]
@[simp] theorem analyse_line (x : List Int) (i : Nat) (b : TbState) : (s.analyse x i b).line = s.line := by simp [State.analyse]

@[simp] theorem markEvent_pending : (s.markEvent).pending = s.pending := by simp only [State.markEvent]; split <;> rfl
@[simp] theorem markEvent_mode : (s.markEvent).mode = s.mode := by simp only [State.markEvent]; split <;> rfl
@[simp] theorem markEvent_clock : (s.markEvent).clock = s.clock := by simp only [State.markEvent]; split <;> rfl
@[simp] theorem markEvent_pins : (s.markEvent).pins = s.pins := by simp only [State.markEvent]; split <;> rfl
@[simp] theorem markEvent_straps : (s.markEvent).straps = s.straps := by simp only [State.markEvent]; split <;> rfl
@[simp] theorem markEvent_sup : (s.markEvent).sup = s.sup := by simp only [State.markEvent]; split <;> rfl
@[simp] theorem markEvent_hdr : (s.markEvent).hdr = s.hdr := by simp only [State.markEvent]; split <;> rfl
@[simp] theorem markEvent_lastCause : (s.markEvent).lastCause = s.lastCause := by simp only [State.markEvent]; split <;> rfl
@[simp] theorem markEvent_ckpt : (s.markEvent).ckpt = s.ckpt := by simp only [State.markEvent]; split <;> rfl
@[simp] theorem markEvent_tb : (s.markEvent).tb = s.tb := by simp only [State.markEvent]; split <;> rfl
@[simp] theorem markEvent_lev : (s.markEvent).lev = s.lev := by simp only [State.markEvent]; split <;> rfl
@[simp] theorem markEvent_ev : (s.markEvent).ev = s.ev := by simp only [State.markEvent]; split <;> rfl
@[simp] theorem markEvent_cap : (s.markEvent).cap = s.cap := by simp only [State.markEvent]; split <;> rfl
@[simp] theorem markEvent_store : (s.markEvent).store = s.store := by simp only [State.markEvent]; split <;> rfl
@[simp] theorem markEvent_notes : (s.markEvent).notes = s.notes := by simp only [State.markEvent]; split <;> rfl
@[simp] theorem markEvent_rep : (s.markEvent).rep = s.rep := by simp only [State.markEvent]; split <;> rfl
@[simp] theorem markEvent_prn : (s.markEvent).prn = s.prn := by simp only [State.markEvent]; split <;> rfl
@[simp] theorem markEvent_line : (s.markEvent).line = s.line := by simp only [State.markEvent]; split <;> rfl
@[simp] theorem markEvent_ctr : (s.markEvent).ctr = s.ctr := by simp only [State.markEvent]; split <;> rfl

theorem findSlot_pending {s s' : State} {v n : Nat} (h : s.findSlot v = some (s', n)) : s'.pending = s.pending := by
  simp only [State.findSlot] at h
  split at h
  · simp only [Option.some.injEq, Prod.mk.injEq] at h; rw [← h.1]
  · simp only [Option.map_eq_some_iff, Prod.mk.injEq] at h; obtain ⟨a, _, rfl, _⟩ := h; rfl
theorem findSlot_mode {s s' : State} {v n : Nat} (h : s.findSlot v = some (s', n)) : s'.mode = s.mode := by
  simp only [State.findSlot] at h
  split at h
  · simp only [Option.some.injEq, Prod.mk.injEq] at h; rw [← h.1]
  · simp only [Option.map_eq_some_iff, Prod.mk.injEq] at h; obtain ⟨a, _, rfl, _⟩ := h; rfl
theorem findSlot_clock {s s' : State} {v n : Nat} (h : s.findSlot v = some (s', n)) : s'.clock = s.clock := by
  simp only [State.findSlot] at h
  split at h
  · simp only [Option.some.injEq, Prod.mk.injEq] at h; rw [← h.1]
  · simp only [Option.map_eq_some_iff, Prod.mk.injEq] at h; obtain ⟨a, _, rfl, _⟩ := h; rfl
theorem findSlot_pins {s s' : State} {v n : Nat} (h : s.findSlot v = some (s', n)) : s'.pins = s.pins := by
  simp only [State.findSlot] at h
  split at h
  · simp only [Option.some.injEq, Prod.mk.injEq] at h; rw [← h.1]
  · simp only [Option.map_eq_some_iff, Prod.mk.injEq] at h; obtain ⟨a, _, rfl, _⟩ := h; rfl
theorem findSlot_straps {s s' : State} {v n : Nat} (h : s.findSlot v = some (s', n)) : s'.straps = s.straps := by
  simp only [State.findSlot] at h
  split at h
  · simp only [Option.some.injEq, Prod.mk.injEq] at h; rw [← h.1]
  · simp only [Option.map_eq_some_iff, Prod.mk.injEq] at h; obtain ⟨a, _, rfl, _⟩ := h; rfl
theorem findSlot_sup {s s' : State} {v n : Nat} (h : s.findSlot v = some (s', n)) : s'.sup = s.sup := by
  simp only [State.findSlot] at h
  split at h
  · simp only [Option.some.injEq, Prod.mk.injEq] at h; rw [← h.1]
  · simp only [Option.map_eq_some_iff, Prod.mk.injEq] at h; obtain ⟨a, _, rfl, _⟩ := h; rfl
theorem findSlot_hdr {s s' : State} {v n : Nat} (h : s.findSlot v = some (s', n)) : s'.hdr = s.hdr := by
  simp only [State.findSlot] at h
  split at h
  · simp only [Option.some.injEq, Prod.mk.injEq] at h; rw [← h.1]
  · simp only [Option.map_eq_some_iff, Prod.mk.injEq] at h; obtain ⟨a, _, rfl, _⟩ := h; rfl
theorem findSlot_lastCause {s s' : State} {v n : Nat} (h : s.findSlot v = some (s', n)) : s'.lastCause = s.lastCause := by
  simp only [State.findSlot] at h
  split at h
  · simp only [Option.some.injEq, Prod.mk.injEq] at h; rw [← h.1]
  · simp only [Option.map_eq_some_iff, Prod.mk.injEq] at h; obtain ⟨a, _, rfl, _⟩ := h; rfl
theorem findSlot_ckpt {s s' : State} {v n : Nat} (h : s.findSlot v = some (s', n)) : s'.ckpt = s.ckpt := by
  simp only [State.findSlot] at h
  split at h
  · simp only [Option.some.injEq, Prod.mk.injEq] at h; rw [← h.1]
  · simp only [Option.map_eq_some_iff, Prod.mk.injEq] at h; obtain ⟨a, _, rfl, _⟩ := h; rfl
theorem findSlot_tb {s s' : State} {v n : Nat} (h : s.findSlot v = some (s', n)) : s'.tb = s.tb := by
  simp only [State.findSlot] at h
  split at h
  · simp only [Option.some.injEq, Prod.mk.injEq] at h; rw [← h.1]
  · simp only [Option.map_eq_some_iff, Prod.mk.injEq] at h; obtain ⟨a, _, rfl, _⟩ := h; rfl
theorem findSlot_lev {s s' : State} {v n : Nat} (h : s.findSlot v = some (s', n)) : s'.lev = s.lev := by
  simp only [State.findSlot] at h
  split at h
  · simp only [Option.some.injEq, Prod.mk.injEq] at h; rw [← h.1]
  · simp only [Option.map_eq_some_iff, Prod.mk.injEq] at h; obtain ⟨a, _, rfl, _⟩ := h; rfl
theorem findSlot_ev {s s' : State} {v n : Nat} (h : s.findSlot v = some (s', n)) : s'.ev = s.ev := by
  simp only [State.findSlot] at h
  split at h
  · simp only [Option.some.injEq, Prod.mk.injEq] at h; rw [← h.1]
  · simp only [Option.map_eq_some_iff, Prod.mk.injEq] at h; obtain ⟨a, _, rfl, _⟩ := h; rfl
theorem findSlot_har {s s' : State} {v n : Nat} (h : s.findSlot v = some (s', n)) : s'.har = s.har := by
  simp only [State.findSlot] at h
  split at h
  · simp only [Option.some.injEq, Prod.mk.injEq] at h; rw [← h.1]
  · simp only [Option.map_eq_some_iff, Prod.mk.injEq] at h; obtain ⟨a, _, rfl, _⟩ := h; rfl
theorem findSlot_notes {s s' : State} {v n : Nat} (h : s.findSlot v = some (s', n)) : s'.notes = s.notes := by
  simp only [State.findSlot] at h
  split at h
  · simp only [Option.some.injEq, Prod.mk.injEq] at h; rw [← h.1]
  · simp only [Option.map_eq_some_iff, Prod.mk.injEq] at h; obtain ⟨a, _, rfl, _⟩ := h; rfl
theorem findSlot_rep {s s' : State} {v n : Nat} (h : s.findSlot v = some (s', n)) : s'.rep = s.rep := by
  simp only [State.findSlot] at h
  split at h
  · simp only [Option.some.injEq, Prod.mk.injEq] at h; rw [← h.1]
  · simp only [Option.map_eq_some_iff, Prod.mk.injEq] at h; obtain ⟨a, _, rfl, _⟩ := h; rfl
theorem findSlot_prn {s s' : State} {v n : Nat} (h : s.findSlot v = some (s', n)) : s'.prn = s.prn := by
  simp only [State.findSlot] at h
  split at h
  · simp only [Option.some.injEq, Prod.mk.injEq] at h; rw [← h.1]
  · simp only [Option.map_eq_some_iff, Prod.mk.injEq] at h; obtain ⟨a, _, rfl, _⟩ := h; rfl
theorem findSlot_line {s s' : State} {v n : Nat} (h : s.findSlot v = some (s', n)) : s'.line = s.line := by
  simp only [State.findSlot] at h
  split at h
  · simp only [Option.some.injEq, Prod.mk.injEq] at h; rw [← h.1]
  · simp only [Option.map_eq_some_iff, Prod.mk.injEq] at h; obtain ⟨a, _, rfl, _⟩ := h; rfl

@[simp] theorem openCapture_pending (q : CapRequest) : (s.openCapture q).1.pending = s.pending := by
  simp only [State.openCapture]
  split
  · rfl
  · rename_i h
    have e := findSlot_pending h
    split <;> simp_all
@[simp] theorem openCapture_mode (q : CapRequest) : (s.openCapture q).1.mode = s.mode := by
  simp only [State.openCapture]
  split
  · rfl
  · rename_i h
    have e := findSlot_mode h
    split <;> simp_all
@[simp] theorem openCapture_clock (q : CapRequest) : (s.openCapture q).1.clock = s.clock := by
  simp only [State.openCapture]
  split
  · rfl
  · rename_i h
    have e := findSlot_clock h
    split <;> simp_all
@[simp] theorem openCapture_pins (q : CapRequest) : (s.openCapture q).1.pins = s.pins := by
  simp only [State.openCapture]
  split
  · rfl
  · rename_i h
    have e := findSlot_pins h
    split <;> simp_all
@[simp] theorem openCapture_straps (q : CapRequest) : (s.openCapture q).1.straps = s.straps := by
  simp only [State.openCapture]
  split
  · rfl
  · rename_i h
    have e := findSlot_straps h
    split <;> simp_all
@[simp] theorem openCapture_sup (q : CapRequest) : (s.openCapture q).1.sup = s.sup := by
  simp only [State.openCapture]
  split
  · rfl
  · rename_i h
    have e := findSlot_sup h
    split <;> simp_all
@[simp] theorem openCapture_hdr (q : CapRequest) : (s.openCapture q).1.hdr = s.hdr := by
  simp only [State.openCapture]
  split
  · rfl
  · rename_i h
    have e := findSlot_hdr h
    split <;> simp_all
@[simp] theorem openCapture_lastCause (q : CapRequest) : (s.openCapture q).1.lastCause = s.lastCause := by
  simp only [State.openCapture]
  split
  · rfl
  · rename_i h
    have e := findSlot_lastCause h
    split <;> simp_all
@[simp] theorem openCapture_ckpt (q : CapRequest) : (s.openCapture q).1.ckpt = s.ckpt := by
  simp only [State.openCapture]
  split
  · rfl
  · rename_i h
    have e := findSlot_ckpt h
    split <;> simp_all
@[simp] theorem openCapture_tb (q : CapRequest) : (s.openCapture q).1.tb = s.tb := by
  simp only [State.openCapture]
  split
  · rfl
  · rename_i h
    have e := findSlot_tb h
    split <;> simp_all
@[simp] theorem openCapture_lev (q : CapRequest) : (s.openCapture q).1.lev = s.lev := by
  simp only [State.openCapture]
  split
  · rfl
  · rename_i h
    have e := findSlot_lev h
    split <;> simp_all
@[simp] theorem openCapture_ev (q : CapRequest) : (s.openCapture q).1.ev = s.ev := by
  simp only [State.openCapture]
  split
  · rfl
  · rename_i h
    have e := findSlot_ev h
    split <;> simp_all
@[simp] theorem openCapture_har (q : CapRequest) : (s.openCapture q).1.har = s.har := by
  simp only [State.openCapture]
  split
  · rfl
  · rename_i h
    have e := findSlot_har h
    split <;> simp_all
@[simp] theorem openCapture_notes (q : CapRequest) : (s.openCapture q).1.notes = s.notes := by
  simp only [State.openCapture]
  split
  · rfl
  · rename_i h
    have e := findSlot_notes h
    split <;> simp_all
@[simp] theorem openCapture_rep (q : CapRequest) : (s.openCapture q).1.rep = s.rep := by
  simp only [State.openCapture]
  split
  · rfl
  · rename_i h
    have e := findSlot_rep h
    split <;> simp_all
@[simp] theorem openCapture_prn (q : CapRequest) : (s.openCapture q).1.prn = s.prn := by
  simp only [State.openCapture]
  split
  · rfl
  · rename_i h
    have e := findSlot_prn h
    split <;> simp_all
@[simp] theorem openCapture_line (q : CapRequest) : (s.openCapture q).1.line = s.line := by
  simp only [State.openCapture]
  split
  · rfl
  · rename_i h
    have e := findSlot_line h
    split <;> simp_all

@[simp] theorem requestFresh_pending (q v t : Nat) : (s.requestFresh q v t).1.pending = s.pending := by simp only [State.requestFresh]; split <;> simp
@[simp] theorem requestFresh_mode (q v t : Nat) : (s.requestFresh q v t).1.mode = s.mode := by simp only [State.requestFresh]; split <;> simp
@[simp] theorem requestFresh_clock (q v t : Nat) : (s.requestFresh q v t).1.clock = s.clock := by simp only [State.requestFresh]; split <;> simp
@[simp] theorem requestFresh_pins (q v t : Nat) : (s.requestFresh q v t).1.pins = s.pins := by simp only [State.requestFresh]; split <;> simp
@[simp] theorem requestFresh_straps (q v t : Nat) : (s.requestFresh q v t).1.straps = s.straps := by simp only [State.requestFresh]; split <;> simp
@[simp] theorem requestFresh_sup (q v t : Nat) : (s.requestFresh q v t).1.sup = s.sup := by simp only [State.requestFresh]; split <;> simp
@[simp] theorem requestFresh_hdr (q v t : Nat) : (s.requestFresh q v t).1.hdr = s.hdr := by simp only [State.requestFresh]; split <;> simp
@[simp] theorem requestFresh_lastCause (q v t : Nat) : (s.requestFresh q v t).1.lastCause = s.lastCause := by simp only [State.requestFresh]; split <;> simp
@[simp] theorem requestFresh_ckpt (q v t : Nat) : (s.requestFresh q v t).1.ckpt = s.ckpt := by simp only [State.requestFresh]; split <;> simp
@[simp] theorem requestFresh_tb (q v t : Nat) : (s.requestFresh q v t).1.tb = s.tb := by simp only [State.requestFresh]; split <;> simp
@[simp] theorem requestFresh_lev (q v t : Nat) : (s.requestFresh q v t).1.lev = s.lev := by simp only [State.requestFresh]; split <;> simp
@[simp] theorem requestFresh_ev (q v t : Nat) : (s.requestFresh q v t).1.ev = s.ev := by simp only [State.requestFresh]; split <;> simp
@[simp] theorem requestFresh_har (q v t : Nat) : (s.requestFresh q v t).1.har = s.har := by simp only [State.requestFresh]; split <;> simp
@[simp] theorem requestFresh_notes (q v t : Nat) : (s.requestFresh q v t).1.notes = s.notes := by simp only [State.requestFresh]; split <;> simp
@[simp] theorem requestFresh_rep (q v t : Nat) : (s.requestFresh q v t).1.rep = s.rep := by simp only [State.requestFresh]; split <;> simp
@[simp] theorem requestFresh_prn (q v t : Nat) : (s.requestFresh q v t).1.prn = s.prn := by simp only [State.requestFresh]; split <;> simp
@[simp] theorem requestFresh_line (q v t : Nat) : (s.requestFresh q v t).1.line = s.line := by simp only [State.requestFresh]; split <;> simp

@[simp] theorem requestOwn_pending (q v t : Nat) : (s.requestOwn q v t).1.pending = s.pending := by simp only [State.requestOwn]; (repeat' split) <;> simp
@[simp] theorem requestOwn_mode (q v t : Nat) : (s.requestOwn q v t).1.mode = s.mode := by simp only [State.requestOwn]; (repeat' split) <;> simp
@[simp] theorem requestOwn_clock (q v t : Nat) : (s.requestOwn q v t).1.clock = s.clock := by simp only [State.requestOwn]; (repeat' split) <;> simp
@[simp] theorem requestOwn_pins (q v t : Nat) : (s.requestOwn q v t).1.pins = s.pins := by simp only [State.requestOwn]; (repeat' split) <;> simp
@[simp] theorem requestOwn_straps (q v t : Nat) : (s.requestOwn q v t).1.straps = s.straps := by simp only [State.requestOwn]; (repeat' split) <;> simp
@[simp] theorem requestOwn_sup (q v t : Nat) : (s.requestOwn q v t).1.sup = s.sup := by simp only [State.requestOwn]; (repeat' split) <;> simp
@[simp] theorem requestOwn_hdr (q v t : Nat) : (s.requestOwn q v t).1.hdr = s.hdr := by simp only [State.requestOwn]; (repeat' split) <;> simp
@[simp] theorem requestOwn_lastCause (q v t : Nat) : (s.requestOwn q v t).1.lastCause = s.lastCause := by simp only [State.requestOwn]; (repeat' split) <;> simp
@[simp] theorem requestOwn_ckpt (q v t : Nat) : (s.requestOwn q v t).1.ckpt = s.ckpt := by simp only [State.requestOwn]; (repeat' split) <;> simp
@[simp] theorem requestOwn_tb (q v t : Nat) : (s.requestOwn q v t).1.tb = s.tb := by simp only [State.requestOwn]; (repeat' split) <;> simp
@[simp] theorem requestOwn_lev (q v t : Nat) : (s.requestOwn q v t).1.lev = s.lev := by simp only [State.requestOwn]; (repeat' split) <;> simp
@[simp] theorem requestOwn_ev (q v t : Nat) : (s.requestOwn q v t).1.ev = s.ev := by simp only [State.requestOwn]; (repeat' split) <;> simp
@[simp] theorem requestOwn_har (q v t : Nat) : (s.requestOwn q v t).1.har = s.har := by simp only [State.requestOwn]; (repeat' split) <;> simp
@[simp] theorem requestOwn_notes (q v t : Nat) : (s.requestOwn q v t).1.notes = s.notes := by simp only [State.requestOwn]; (repeat' split) <;> simp
@[simp] theorem requestOwn_rep (q v t : Nat) : (s.requestOwn q v t).1.rep = s.rep := by simp only [State.requestOwn]; (repeat' split) <;> simp
@[simp] theorem requestOwn_prn (q v t : Nat) : (s.requestOwn q v t).1.prn = s.prn := by simp only [State.requestOwn]; (repeat' split) <;> simp
@[simp] theorem requestOwn_line (q v t : Nat) : (s.requestOwn q v t).1.line = s.line := by simp only [State.requestOwn]; (repeat' split) <;> simp

@[simp] theorem requestCompanion_pending (n q t : Nat) : (s.requestCompanion n q t).pending = s.pending := by simp only [State.requestCompanion]; split <;> simp
@[simp] theorem requestCompanion_mode (n q t : Nat) : (s.requestCompanion n q t).mode = s.mode := by simp only [State.requestCompanion]; split <;> simp
@[simp] theorem requestCompanion_clock (n q t : Nat) : (s.requestCompanion n q t).clock = s.clock := by simp only [State.requestCompanion]; split <;> simp
@[simp] theorem requestCompanion_pins (n q t : Nat) : (s.requestCompanion n q t).pins = s.pins := by simp only [State.requestCompanion]; split <;> simp
@[simp] theorem requestCompanion_straps (n q t : Nat) : (s.requestCompanion n q t).straps = s.straps := by simp only [State.requestCompanion]; split <;> simp
@[simp] theorem requestCompanion_sup (n q t : Nat) : (s.requestCompanion n q t).sup = s.sup := by simp only [State.requestCompanion]; split <;> simp
@[simp] theorem requestCompanion_hdr (n q t : Nat) : (s.requestCompanion n q t).hdr = s.hdr := by simp only [State.requestCompanion]; split <;> simp
@[simp] theorem requestCompanion_lastCause (n q t : Nat) : (s.requestCompanion n q t).lastCause = s.lastCause := by simp only [State.requestCompanion]; split <;> simp
@[simp] theorem requestCompanion_ckpt (n q t : Nat) : (s.requestCompanion n q t).ckpt = s.ckpt := by simp only [State.requestCompanion]; split <;> simp
@[simp] theorem requestCompanion_tb (n q t : Nat) : (s.requestCompanion n q t).tb = s.tb := by simp only [State.requestCompanion]; split <;> simp
@[simp] theorem requestCompanion_lev (n q t : Nat) : (s.requestCompanion n q t).lev = s.lev := by simp only [State.requestCompanion]; split <;> simp
@[simp] theorem requestCompanion_ev (n q t : Nat) : (s.requestCompanion n q t).ev = s.ev := by simp only [State.requestCompanion]; split <;> simp
@[simp] theorem requestCompanion_har (n q t : Nat) : (s.requestCompanion n q t).har = s.har := by simp only [State.requestCompanion]; split <;> simp
@[simp] theorem requestCompanion_notes (n q t : Nat) : (s.requestCompanion n q t).notes = s.notes := by simp only [State.requestCompanion]; split <;> simp
@[simp] theorem requestCompanion_rep (n q t : Nat) : (s.requestCompanion n q t).rep = s.rep := by simp only [State.requestCompanion]; split <;> simp
@[simp] theorem requestCompanion_prn (n q t : Nat) : (s.requestCompanion n q t).prn = s.prn := by simp only [State.requestCompanion]; split <;> simp
@[simp] theorem requestCompanion_line (n q t : Nat) : (s.requestCompanion n q t).line = s.line := by simp only [State.requestCompanion]; split <;> simp

end Sys2Proof.Machine
end

