-- ==== Sys2Proof/Laws/Line.lean ====
section
/-!
SUPPORT. What the shared operations of the line and of the print exchange do, said once each: the taking of a frame, the
handing over of a frame, the passing of time to a deadline, and the hand-overs at this station.
-/

namespace Sys2Proof.Machine

/-- A frame that is heard and addressed here is taken by its block in the state whose roster shows it. -/
theorem receive_takes {s : State} {rx : Rx} (h : s.takes rx) (b : Option BeaconInfo) (take : State → State) :
    s.receive rx b take = take { s with line := s.line.refresh rx.sender.toNat s.clock.now b } := by
  obtain ⟨h1, h2, h3, h4, h5⟩ := h
  have h3' : ¬ rx.sender.toNat = 15 := fun hh => h3 (BitVec.eq_of_toNat_eq (by simpa using hh))
  have h6 : s.addressed rx = true := by
    rcases h5 with h5 | h5 <;> simp [State.addressed, h5]
  unfold State.receive
  rw [if_neg (by simp [State.listening, h1, h2, h3']), if_neg (by simpa using h4)]
  exact if_pos h6

/-- A part that does not listen, and a sender field of 15, leave everything as it is. -/
theorem receive_deaf {s : State} {rx : Rx} (h : s.mode ≠ .running ∨ s.sup.opening ≠ none ∨ rx.sender = 15)
    (b : Option BeaconInfo) (take : State → State) : s.receive rx b take = s := by
  unfold State.receive
  refine if_pos ?_
  rcases h with h | h | h
  · simp [State.listening, h]
  · obtain ⟨r, hr⟩ := Option.ne_none_iff_exists'.1 h
    simp [State.listening, hr]
  · simp [h]

/-- The own number as a frame's sender makes the station MUTED. -/
theorem receive_own {s : State} {rx : Rx} (hm : s.mode = .running) (ho : s.sup.opening = none)
    (h15 : rx.sender ≠ 15) (h : s.ownNumber = some rx.sender.toNat) (b : Option BeaconInfo) (take : State → State) :
    s.receive rx b take = s.conflict := by
  have h3' : ¬ rx.sender.toNat = 15 := fun hh => h15 (BitVec.eq_of_toNat_eq (by simpa using hh))
  unfold State.receive
  rw [if_neg (by simp [State.listening, hm, ho, h3']), if_pos (by simp [h])]

/-- With no hand-over on its way the exchange is at its end. -/
@[simp] theorem run_nil (s : State) : Exchange.run (s, []) = s := by simp [Exchange.run, runHands]

/-- A message to another station is a frame, and no hand-over. -/
@[simp] theorem post_station (s : State) (n : Nat) (b : Bool) (m : Payload) : s.post (.station n) b m = (s.send m n, []) := rfl

/-- A deadline is reached, or lies in the past. -/
@[simp] theorem passTo_now (s : State) (t : Nat) : (s.passTo t).clock.now = max s.clock.now t := by
  unfold State.passTo State.pass State.setSurvey
  dsimp only
  split <;> [split; skip] <;> simp <;> omega

/-- A frame other than a beacon joins the end of a queue that has room. -/
theorem handOver_room {l : Line} {p : Payload} (hm : l.muted = false) (hb : p.isBeacon = false) (hr : l.queue.length < 8)
    (now a : Nat) : l.handOver now p a = { l with queue := l.queue ++ [⟨p, a, now, 0, false, false⟩] } := by
  simp [Line.handOver, hm, hb, joinQueue, hr]

/-- A queue of at most 8 frames stays so when a frame is handed over, and a MUTED station's queue stays as it was. -/
theorem handOver_ok {l : Line} (h : l.queue.length ≤ 8) (now a : Nat) (p : Payload) :
    (l.handOver now p a).queue.length ≤ 8 ∧ (l.muted = true → l.handOver now p a = l) ∧
      (l.handOver now p a).muted = l.muted := by
  refine ⟨?_, fun hm => by simp [Line.handOver, hm], by unfold Line.handOver; split <;> rfl⟩
  unfold Line.handOver
  split
  · exact h
  · dsimp only
    generalize hq : (if p.isBeacon then l.queue.filter fun f => !(f.payload.isBeacon && !f.sending) else l.queue) = q
    have hl : q.length ≤ 8 := by
      subst hq
      split
      · exact (List.length_filter_le ..).trans h
      · exact h
    unfold joinQueue
    split
    · simp only [List.length_append, List.length_cons, List.length_nil]
      omega
    · split
      · rename_i q' hq'
        unfold displace at hq'
        split at hq'
        · rename_i hany
          obtain rfl := Option.some.inj hq'
          obtain ⟨x, hx, hpx⟩ := List.any_eq_true.1 hany
          have := List.length_eraseP_of_mem (p := fun f => decide (p.priority < f.payload.priority) && !f.sending)
            (List.mem_reverse.2 hx) hpx
          simp only [List.length_append, List.length_reverse, List.length_cons, List.length_nil] at *
          omega
        · simp at hq'
      · exact hl

end Sys2Proof.Machine
end

