-- ==== Sys2Proof/Laws/Memory.lean ====
section
/-!
SUPPORT. The data pages keep their canonical form under every operation on them, and reset's have it.
-/

namespace Sys2Proof.Machine

/-- The cells of a run lie within the run, and none holds what an unlisted address reads as. -/
theorem Memory.mem_cellsFrom {a : Nat} {bs : List Byte} {c : Host.Cell} (h : c ∈ Memory.cellsFrom a bs) :
    a ≤ c.1 ∧ c.1 < a + bs.length ∧ c.2 ≠ Config.unlistedByte := by
  induction bs generalizing a with
  | nil => simp [Memory.cellsFrom] at h
  | cons b bs ih =>
    rw [Memory.cellsFrom] at h
    split at h
    · obtain ⟨h1, h2, h3⟩ := ih h
      simp only [List.length_cons]
      exact ⟨by omega, by omega, h3⟩
    · rcases List.mem_cons.1 h with rfl | h
      · exact ⟨le_rfl, by simp, ‹_›⟩
      · obtain ⟨h1, h2, h3⟩ := ih h
        simp only [List.length_cons]
        exact ⟨by omega, by omega, h3⟩

/-- The cells of a run rise. -/
theorem Memory.cellsFrom_pairwise (a : Nat) (bs : List Byte) : (Memory.cellsFrom a bs).Pairwise fun x y => x.1 < y.1 := by
  induction bs generalizing a with
  | nil => exact List.Pairwise.nil
  | cons b bs ih =>
    rw [Memory.cellsFrom]
    split
    · exact ih _
    · refine List.Pairwise.cons (fun c hc => ?_) (ih _)
      have := Memory.mem_cellsFrom hc
      simp only
      omega

/-- A write within the 2 MiB keeps the canonical form. -/
theorem Memory.write_wf {m : Memory} (h : m.wf) {a : Nat} {bs : List Byte} (ha : a + bs.length ≤ 2048 * Config.pageBytes) :
    (m.write a bs).wf := by
  obtain ⟨hp, hm⟩ := h
  constructor
  · simp only [Memory.write, List.pairwise_append]
    refine ⟨⟨hp.filter _, Memory.cellsFrom_pairwise a bs, ?_⟩, hp.filter _, ?_⟩
    · intro x hx y hy
      have h1 := (List.mem_filter.1 hx).2
      have h2 := Memory.mem_cellsFrom hy
      simp only [decide_eq_true_eq] at h1
      omega
    · intro x hx y hy
      have h2 := (List.mem_filter.1 hy).2
      simp only [decide_eq_true_eq] at h2
      rcases List.mem_append.1 hx with hx | hx
      · have h1 := (List.mem_filter.1 hx).2
        simp only [decide_eq_true_eq] at h1
        omega
      · have h1 := Memory.mem_cellsFrom hx
        omega
  · intro c hc
    simp only [Memory.write, List.mem_append] at hc
    rcases hc with (hc | hc) | hc
    · exact hm c (List.mem_filter.1 hc).1
    · have h1 := Memory.mem_cellsFrom hc
      exact ⟨by omega, h1.2.2⟩
    · exact hm c (List.mem_filter.1 hc).1

/-- A page holds 1024 bytes. -/
@[simp] theorem pageOf_length (bs : List Byte) : (pageOf bs).length = Config.pageBytes := by
  simp [pageOf]

/-- A write to a data page keeps the canonical form. -/
theorem Memory.writePage_wf {m : Memory} (h : m.wf) (p n : Nat) (bs : List Byte) : (m.writePage p n bs).wf := by
  unfold Memory.writePage
  split
  · rename_i hp
    refine Memory.write_wf h ?_
    have h1 : ((pageOf bs).take n).length ≤ Config.pageBytes := by
      rw [List.length_take, pageOf_length]
      exact min_le_right _ _
    simp only [isDataPage, Config.firstDataPage, Config.dataPages, Config.pageBytes] at *
    omega
  · exact h

/-- Showing OPEN in a header page keeps the canonical form. -/
theorem Memory.showOpen_wf {m : Memory} (h : m.wf) (p : Nat) : (m.showOpen p).wf := by
  unfold Memory.showOpen
  split
  · rename_i hp
    refine Memory.write_wf h ?_
    simp only [isDataPage, Config.firstDataPage, Config.dataPages, Config.pageBytes, List.length_singleton] at *
    omega
  · exact h

/-- Taking cells out keeps the canonical form. -/
theorem Memory.filter_wf {m : Memory} (h : m.wf) (f : Host.Cell → Bool) : Memory.wf (m.filter f) :=
  ⟨h.1.filter _, fun c hc => h.2 c (List.mem_filter.1 hc).1⟩

/-- The data pages of reset have the canonical form. -/
theorem reset_memory_wf : Memory.wf State.reset.store.nv.mem := by decide

/-! ## What is read -/

/-- A read of an address finds the cell of that address, if one is listed. -/
theorem Memory.read_append_left {m n : Memory} {a : Nat} (h : ∀ c ∈ m, c.1 ≠ a) : Memory.read (m ++ n) a = Memory.read n a := by
  have : m.find? (fun c => c.1 == a) = none := by
    rw [List.find?_eq_none]
    intro c hc
    simpa using h c hc
  simp [Memory.read, List.find?_append, this]

/-- Cells of other addresses behind do not matter. -/
theorem Memory.read_append_right {m n : Memory} {a : Nat} (h : ∀ c ∈ n, c.1 ≠ a) : Memory.read (m ++ n) a = Memory.read m a := by
  have : n.find? (fun c => c.1 == a) = none := by
    rw [List.find?_eq_none]
    intro c hc
    simpa using h c hc
  simp [Memory.read, List.find?_append, this]

/-- Taking out cells of other addresses does not matter. -/
theorem Memory.read_filter {m : Memory} {a : Nat} {f : Host.Cell → Bool} (h : ∀ c ∈ m, c.1 = a → f c = true) :
    Memory.read (m.filter f) a = Memory.read m a := by
  have : (m.filter f).find? (fun c => c.1 == a) = m.find? (fun c => c.1 == a) := by
    induction m with
    | nil => rfl
    | cons c m ih =>
      have ih := ih fun x hx => h x (List.mem_cons_of_mem _ hx)
      by_cases hc : c.1 = a
      · simp [h c (List.mem_cons_self ..) hc, hc]
      · by_cases hf : f c
        · simp [hf, hc, ih]
        · simp [hf, hc, ih]
  simp [Memory.read, this]

/-- The cells of a run read as the run. -/
theorem Memory.read_cellsFrom (a : Nat) (bs : List Byte) (i : Nat) (h : i < bs.length) :
    Memory.read (Memory.cellsFrom a bs) (a + i) = bs[i] := by
  induction bs generalizing a i with
  | nil => simp at h
  | cons b bs ih =>
    have later : ∀ c ∈ Memory.cellsFrom (a + 1) bs, c.1 ≠ a := fun c hc => by
      have := Memory.mem_cellsFrom hc
      omega
    cases i with
    | zero =>
      rw [Memory.cellsFrom]
      split
      · rename_i hb
        have : (Memory.cellsFrom (a + 1) bs).find? (fun c => c.1 == a) = none := by
          rw [List.find?_eq_none]
          intro c hc
          simpa using later c hc
        simp [Memory.read, this, hb]
      · simp [Memory.read]
    | succ i =>
      have step := ih (a + 1) i (by simpa using h)
      have e : a + (i + 1) = a + 1 + i := by omega
      rw [Memory.cellsFrom, e]
      split
      · simpa using step
      · have : ¬ a = a + 1 + i := by omega
        simpa [Memory.read, this] using step

/-- A read after a write: the bytes written within the run, and what was there outside it. -/
theorem Memory.read_write (m : Memory) (a : Nat) (bs : List Byte) (x : Nat) :
    (m.write a bs).read x = if h : a ≤ x ∧ x < a + bs.length then bs[x - a]'(by omega) else m.read x := by
  split
  · rename_i h
    rw [Memory.write, Memory.read_append_right, Memory.read_append_left]
    · have := Memory.read_cellsFrom a bs (x - a) (by omega)
      rwa [Nat.add_sub_cancel' h.1] at this
    · intro c hc
      have := (List.mem_filter.1 hc).2
      simp only [decide_eq_true_eq] at this
      omega
    · intro c hc
      have := (List.mem_filter.1 hc).2
      simp only [decide_eq_true_eq] at this
      omega
  · rename_i h
    by_cases hx : x < a
    · rw [Memory.write, Memory.read_append_right, Memory.read_append_right, Memory.read_filter]
      · intro c _ hc
        simpa [hc] using hx
      · intro c hc
        have := Memory.mem_cellsFrom hc
        omega
      · intro c hc
        have := (List.mem_filter.1 hc).2
        simp only [decide_eq_true_eq] at this
        omega
    · rw [Memory.write, Memory.read_append_left, Memory.read_filter]
      · intro c _ hc
        simp only [decide_eq_true_eq]
        omega
      · intro c hc
        rcases List.mem_append.1 hc with hc | hc
        · have := (List.mem_filter.1 hc).2
          simp only [decide_eq_true_eq] at this
          omega
        · have := Memory.mem_cellsFrom hc
          omega

/-- A header page in which OPEN is shown reads so, and every other byte reads as before. -/
theorem Memory.read_showOpen (m : Memory) {p : Nat} (hp : isDataPage p) (x : Nat) :
    (m.showOpen p).read x = if x = p * Config.pageBytes + 6 then 0 else m.read x := by
  unfold Memory.showOpen
  rw [if_pos hp, Memory.read_write]
  by_cases hx : x = p * Config.pageBytes + 6
  · simp [hx]
  · rw [dif_neg (by simp only [List.length_singleton]; omega), if_neg hx]

end Sys2Proof.Machine
end

