-- ==== Sys2Proof/Laws/Region.lean ====
section
/-!
SUPPORT. The system region: an item written whole agrees with its check, a write is read back at its address, and every
other address reads as before.
-/

namespace Sys2Proof.Machine

@[simp] theorem SysContent.cell_agrees (c : SysContent) : c.cell.agrees = true := by simp [SysContent.cell, SysCell.agrees]

@[simp] theorem SysContent.torn_agrees (c : SysContent) : c.torn.agrees = false := by
  simp only [SysContent.torn, SysCell.agrees, beq_eq_false_iff_ne]
  intro h
  have := congrArg (BitVec.getLsbD · 0) h
  simp at this

@[simp] theorem SysContent.cell_content (c : SysContent) : c.cell.content = c := rfl

/-- The first entry of a key in a list into which one of another key was put. -/
theorem find_insertBy_of_ne {α : Type} (key : α → Nat) {a : α} {k : Nat} (h : key a ≠ k) (l : List α) :
    (insertBy key a l).find? (fun x => key x == k) = l.find? fun x => key x == k := by
  induction l with
  | nil => simp [insertBy, h]
  | cons b l ih =>
    rw [insertBy]
    split
    · simp [List.find?_cons, h]
    · simp only [List.find?_cons, ih]

/-- The first entry of a key in a list into which it was put, no other having that key. -/
theorem find_insertBy_self {α : Type} (key : α → Nat) (a : α) {l : List α} (h : ∀ x ∈ l, key x ≠ key a) :
    (insertBy key a l).find? (fun x => key x == key a) = some a := by
  induction l with
  | nil => simp [insertBy]
  | cons b l ih =>
    rw [insertBy]
    split
    · simp
    · simp [h b (by simp), ih fun x hx => h x (by simp [hx])]

/-- The first entry of a key in a list without the entries of another key. -/
theorem find_filter_of_ne {α : Type} (key : α → Nat) {a k : Nat} (h : a ≠ k) (l : List α) :
    (l.filter fun x => key x != k).find? (fun x => key x == a) = l.find? fun x => key x == a := by
  rw [List.find?_filter]
  congr 1
  funext x
  by_cases hx : key x = a <;> simp [hx, h]

@[simp] theorem Region.put_mem (nv : Region) (a : Nat) (c : SysCell) : (nv.put a c).mem = nv.mem := rfl

@[simp] theorem Region.erase_mem (nv : Region) (a : Nat) : (nv.erase a).mem = nv.mem := rfl

/-- What a write leaves at its address: the content where the check agrees, and nothing valid where it does not. -/
theorem Region.read_put (nv : Region) (a : Nat) (c : SysCell) :
    (nv.put a c).read a = if c.agrees then some c.content else none := by
  unfold Region.read Region.put
  rw [show (fun x : Nat × SysCell => x.1 == a) = fun x => x.1 == (a, c).1 from rfl, find_insertBy_self]
  intro x hx
  simpa using (List.mem_filter.1 hx).2

/-- A write leaves every other address as it was. -/
theorem Region.read_put_of_ne {nv : Region} {a b : Nat} (h : b ≠ a) (c : SysCell) : (nv.put a c).read b = nv.read b := by
  unfold Region.read Region.put
  rw [find_insertBy_of_ne _ (by simpa using h.symm), find_filter_of_ne _ h]

/-- An address written empty holds nothing. -/
theorem Region.read_erase (nv : Region) (a : Nat) : (nv.erase a).read a = none := by
  unfold Region.read Region.erase
  rw [List.find?_eq_none.2]
  simp

/-- An address written empty leaves every other address as it was. -/
theorem Region.read_erase_of_ne {nv : Region} {a b : Nat} (h : b ≠ a) : (nv.erase a).read b = nv.read b := by
  unfold Region.read Region.erase
  rw [find_filter_of_ne _ h]

/-- A header written whole at the first address of the region is read back. -/
theorem Region.header_of_first {nv : Region} {h : Header} {rest : List (Nat × SysCell)}
    (hs : nv.sys = (headerPage * Config.pageBytes, (SysContent.header h).cell) :: rest) : nv.header = some h := by
  simp [Region.header, Region.read, hs]

end Sys2Proof.Machine
end

