-- ==== Sys2Proof/Laws/Sealing.lean ====
section
/-!
SUPPORT. What the operations of a sealing stage and of a cut do, said once each: when the closing writes have ended, how the
stage ends, and what becomes of the header pages of captures.
-/

namespace Sys2Proof.Machine

/-- The closing writes of a record have ended when its live entry, if any, is SEALED and awaits no release. -/
theorem Store.closingEnded_iff (st : Store) (r : Nat) :
    st.closingEnded r = true ↔ ∀ e, st.entryOf r = some e → e.img.sealed = true ∧ e.keep = none := by
  unfold Store.closingEnded
  cases st.entryOf r <;> simp

/-- Those of several records, as the model tests them and as the statements say it. -/
theorem closingWritesEnded_iff (s : State) (records : List Nat) :
    records.all s.store.closingEnded = true ↔ s.closingWritesEnded records := by
  simp only [List.all_eq_true, Store.closingEnded_iff, State.closingWritesEnded]

/-- With no sealing stage under way nothing goes on. -/
@[simp] theorem endSealing_none {s : State} (h : s.sup.sealing = none) : s.endSealing = s := by
  simp [State.endSealing, h]

/-- A sealing stage whose closing writes have not ended goes on. -/
theorem endSealing_waits {s : State} {x : Sealing} (h : s.sup.sealing = some x) (hw : ¬s.closingWritesEnded x.records) :
    s.endSealing = s := by
  rw [← closingWritesEnded_iff] at hw
  simp only [State.endSealing, h]
  exact if_neg hw

/-- One whose closing writes have ended is followed by the rest of the close or of parking. -/
theorem endSealing_ends {s : State} {x : Sealing} (h : s.sup.sealing = some x) (hw : s.closingWritesEnded x.records) :
    s.endSealing = match x.goesOn with
      | .close asked => { s with sup := { s.sup with sealing := none } }.finishClose asked
      | .park => { s with sup := { s.sup with sealing := none } }.finishPark := by
  rw [← closingWritesEnded_iff] at hw
  simp only [State.endSealing, h]
  exact if_pos hw

/-- A close that is not under way begins with its sealing stage. -/
theorem closeSurvey_begins {s : State} (h : s.sup.sealing = none) (asked : List Nat) :
    s.closeSurvey asked = (s.beginSealing 2 .cut (.close asked)).endSealing := by
  simp [State.closeSurvey, h]

/-- A close under way keeps what it has, and answers those who ask meanwhile after those who asked before (log 63). -/
theorem closeSurvey_again {s : State} {records earlier : List Nat} (h : s.sup.sealing = some ⟨records, .close earlier⟩)
    (asked : List Nat) :
    s.closeSurvey asked = { s with sup := { s.sup with sealing := some ⟨records, .close (earlier ++ asked)⟩ } } := by
  simp [State.closeSurvey, h]

/-- What asks for a close without an answer changes nothing of one under way. -/
@[simp] theorem closeSurvey_unasked {s : State} (h : s.sup.sealing ≠ none) : s.closeSurvey [] = s := by
  unfold State.closeSurvey
  split
  · contradiction
  · rename_i hx
    rw [List.append_nil, ← hx]
  · rfl

/-- All measuring blocks run where measurement is on and no close has stopped any. -/
theorem measuring_iff (s : State) : s.measuring = true ↔ s.inSurvey = true ∧ s.sup.sealing = none := by
  simp [State.measuring]

/-- No sealing stage, and nothing that waits for the end of a write: a write's end changes nothing else. -/
@[simp] theorem afterWrite_idle {s : State} (hs : s.sup.sealing = none) (hr : s.sup.restartDue = none) : s.afterWrite = s := by
  simp [State.afterWrite, State.sealingGoesOn, hs, hr]

/-- What becomes of the header pages at a cut leaves the system region as it is. -/
@[simp] theorem keepHeader_sys (nv : Region) (e : Entry) : (keepHeader nv e).sys = nv.sys := by
  unfold keepHeader
  (repeat' split) <;> rfl

/-- It keeps the canonical form of the data pages. -/
theorem keepHeader_wf {nv : Region} (h : Memory.wf nv.mem) (e : Entry) : Memory.wf (keepHeader nv e).mem := by
  unfold keepHeader
  (repeat' split) <;> first | exact h | exact Memory.writePage_wf h ..

/-- A cut keeps the header pages entry by entry. -/
theorem keepHeaders_wf {nv : Region} (h : Memory.wf nv.mem) (es : List Entry) : Memory.wf (es.foldl keepHeader nv).mem := by
  induction es generalizing nv with
  | nil => exact h
  | cons e es ih => exact ih (keepHeader_wf h e)

end Sys2Proof.Machine
end

