-- ==== Sys2Proof/Laws/Timebase.lean ====
section
/-!
SUPPORT. When the period of the timebase changes (R25, R38), said once for each of its updates.
-/

namespace Sys2Proof.Machine

variable (tb : Timebase)

/-- A strobe brings about the change of P that waits for it, and leaves none waiting. -/
@[simp] theorem strobe_period : tb.strobe.period = tb.periodNext := rfl

@[simp] theorem strobe_nextPeriod : tb.strobe.nextPeriod = none := rfl

/-- After a strobe the next one paces by the same P, unless something changes it in between. -/
@[simp] theorem strobe_periodNext : tb.strobe.periodNext = tb.periodNext := rfl

/-- Following a peer leaves P as it is until the next strobe. -/
@[simp] theorem toPeer_period (n f : Nat) : (tb.toPeer n f).period = tb.period := rfl

@[simp] theorem toPeer_periodNext (n f : Nat) : (tb.toPeer n f).periodNext = 40000000000 / f := rfl

/-- FREE and LOCKED set P at once, also where a change of P was waiting. -/
@[simp] theorem toFree_periodNext (hz : Nat) : (tb.toFree hz).periodNext = nominalPeriod hz := rfl

@[simp] theorem lock_periodNext (l : List Nat) : (tb.lock l).periodNext = meanOf (lastOf 4 l) := rfl

@[simp] theorem start_periodNext (hz now : Nat) : (Timebase.start hz now).periodNext = nominalPeriod hz := rfl

/-- HOLDOVER holds P. -/
@[simp] theorem holdover_periodNext : tb.holdover.periodNext = tb.periodNext := rfl

end Sys2Proof.Machine
end

