-- ==== Sys2Proof/Tests/Slice0.lean ====
section
/-!
SUPPORT. Tests: the ill-formed terms that the well-formedness checks refuse, values that the manual's own examples give, and
for every statement with hypotheses a state and operands that meet them.
-/

namespace Sys2Proof.Machine

/-! ## Ill-formed terms -/

/-- A restart whose page test names page 0. -/
theorem test_wellFormed_page : (Instr.powerOn ⟨⟨1, true, true⟩, [0]⟩).wellFormed = false := by decide

/-- A restart whose page test names a page twice. -/
theorem test_wellFormed_pageTwice : (Instr.pinReset ⟨⟨1, true, true⟩, [128, 128]⟩).wellFormed = false := by decide

/-- A TRIGGER during an instant with a sender field of 15. -/
theorem test_wellFormed_between :
    (Instr.instant ⟨⟨0, 0, 0, 0, 0, 0⟩, some (⟨15, 1⟩, ⟨36, 12, 2, 0⟩)⟩).wellFormed = false := by decide

/-- A sender field of 15. -/
theorem test_wellFormed_sender : (Instr.go ⟨15, 1⟩ 4).wellFormed = false := by decide

/-- A label of 17 characters. -/
theorem test_wellFormed_label :
    (Instr.surveyOpen ⟨0, 1⟩ ⟨36, 2300, 50, 9000, 1000, 11000, 200, 6, 50, 1, 1, 8, 0, 0, List.replicate 17 65⟩).wellFormed = false := by
  decide

/-- A note text of 41 characters. -/
theorem test_wellFormed_note : (Instr.note ⟨0, 15⟩ ⟨7, 2, 5, 0, List.replicate 41 65⟩).wellFormed = false := by decide

/-- An END block with text. -/
theorem test_wellFormed_block : (Instr.printBlock ⟨5, 3⟩ ⟨4, 8, 1, [65]⟩).wellFormed = false := by decide

/-- A known kind as OTHER_FRAME. -/
theorem test_wellFormed_kind : (Instr.otherFrame ⟨5, 3⟩ 0x17).wellFormed = false := by decide

/-- Station 15 in the roster. -/
theorem test_wellFormed_roster : (Instr.rosterExpiry 15).wellFormed = false := by decide

/-- The bits of a good frame as a BAD_FRAME. -/
theorem test_wellFormed_bits :
    (Instr.badFrame (RawFrame.send ⟨1, 5, 0x17, 3, [4]⟩)).wellFormed = false := by decide +kernel

/-! ## Values of the manual -/

/-- Chapter 2.12: 49,992 mHz at P = 800,120, and a step of 6251 or 6250 ticks. -/
theorem test_published : Timebase.published { Timebase.start 50 0 with state := .locked, period := 800120 } = 49992 ∧
    stepOf 800120 127 = (6251, 119) ∧ stepOf 800120 0 = (6250, 120) := by decide

/-- Chapter 2.12: station 2 is followed with P = 800,128 from the next strobe on (R38), and the ninth interval locks with P = 800,142. -/
theorem test_acquisition : ((Timebase.start 50 0).choose 50 (some (2, 49992))).period = 800000 ∧
    ((Timebase.start 50 0).choose 50 (some (2, 49992))).strobe.period = 800128 ∧
    acquired 50 [812400, 800200, 800160, 800090, 800140, 800110, 800180, 800130] = false ∧
    acquired 50 [800200, 800160, 800090, 800140, 800110, 800180, 800130, 800150] = true ∧
    ((Timebase.start 50 0).lock [800200, 800160, 800090, 800140, 800110, 800180, 800130, 800150]).period = 800142 := by decide

/-- Chapter 3.6: the three windows and the clipped one. -/
theorem test_levels : rmsOf 5308620800 = 103040 ∧ levelOf 2300 103040 = 7000 ∧ rmsOf 5308621000 = 103040 ∧
    rmsOf 6771200000 = 116371 ∧ levelOf 2300 116371 = 7905 ∧ levelOf 500 (rmsOf 137438953472) = 65535 := by decide +kernel

/-- Chapter 6.9: V1's ratios and THD in block b6, and in the sealed interval. -/
theorem test_ratios :
    let amps := fun a b c => [a, 0, 0, 0, b, 0, c] ++ List.replicate 33 0
    (ratiosOf (amps 147600 800 700)).2 = 72 ∧ (ratiosOf (amps 147600 800 700)).1.getD 3 0 = 54 ∧
      (ratiosOf (amps 147000 1013 605)).2 = 80 ∧ (ratiosOf (amps 147000 1013 605)).1.getD 5 0 = 41 := by decide +kernel

/-- R140: a COMPLETE WAVEFORM with six channels has 31 pages (512 pre instants, R77). -/
theorem test_pages : plannedPages 512 6 = 31 := by decide

/-- Chapter 9.5: the banner and the trailer of job 5/4. -/
theorem test_trailer :
    let s := { State.reset with prn := { State.reset.prn with lines := 7 } }
    s.banner ⟨.station 5, 4, .sagList, false, 0, true⟩ = txt "== JOB  5/  4 SAG LIST" ∧
      s.trailerOf ⟨.station 5, 4, .sagList, false, 0, true⟩ true = txt "== END  5/  4 LINES    7" := by decide

/-- R180: five equal bits are followed by a bit of the opposite level, which counts toward the next run. -/
theorem test_stuff : stuff true 0 [false, false, false, false, false, true, true, true, true, false] =
    [false, false, false, false, false, true, true, true, true, true, false, false] := by decide

/-- The known check value of the polynomial of R181 from all ones, over the characters 1 to 9. -/
theorem test_crc : crcOf (payloadBits (txt "123456789")) = 0x29B1 := by decide +kernel

/-- R198, R181: a TAKEN frame's fields, bit by bit: kind 0x19 and addressee 5 behind the sender. -/
theorem test_fields : (RawFrame.mk 1 3 0x19 5 [4, 0, 8]).plainBits.take 23 =
    [false, false, false, true, false, false, true, true, true, true, false, false, true, false, true, false, true, false, false, false,
     false, true, true] := by decide

/-- R195, R22: the counters stop at 65535. -/
theorem test_saturation : satAdd 65535 1 = 65535 ∧ satAdd 65534 1 = 65535 := by decide

/-- R119: the last entry stands in page 118, the third of its page, and the header in page 0. -/
theorem test_places : (SysItem.entry 1023 none).page = 118 ∧ (SysItem.entry 9 none).address = 6 * 1024 ∧
    (SysItem.bad true).address = 2 * 1024 ∧ (SysItem.ctl false).address = 3 * 1024 ∧ headerPage = 0 := by decide

/-- R173, R200: a line of two characters on the printer port. -/
theorem test_port : portBytes (txt "AB") = [0x41, 0x42, 0x0D, 0x0A] := by decide

/-- R119, R16: the header that the reset state holds in page 0 is valid, and reads back. -/
theorem test_header : State.reset.store.nv.header = some resetHeader := Region.header_of_first rfl

/-! ## States for the witnesses -/

/-- A station that records survey 36 with cross-triggering on. -/
def live : State :=
  { State.reset with
    hdr := { resetHeader with number := 36, state := .recording, params := { defaultParams with send := true, accept := true } }
    tb := Timebase.start 50 0
    ckpt := some 400000000 }

/-- The same with a header state. -/
def inState (h : HeaderState) : State := { live with hdr := { live.hdr with state := h } }

/-- A frame from station 5 to station 1. -/
def rx5 : Rx := ⟨5, 1⟩

/-- A frame in the transmit queue. -/
def waits (p : Payload) : TxFrame := ⟨p, 5, 0, 0, false, false⟩

/-- A queue of `n` frames of a payload. -/
def withQueue (n : Nat) (p : Payload) : State := { live with line := { live.line with queue := List.replicate n (waits p) } }

/-- A record of one page in directory entry 0. -/
def oneRecord (shut : Bool) (pages : List Nat) (verified : Nat) : Entry :=
  ⟨0, ⟨7, .note, none, shut, .none, 0, pages, verified⟩, 0, 0, some 9, none, []⟩

/-- A station whose store holds that record, with writes waiting. -/
def withRecord (e : Entry) (ws : List StoreWrite) : State :=
  { live with store := { live.store with dir := [e], last := 7, writes := ws } }

/-- An origin job 4 at station 5. -/
def job5 (st : JobState) : Job :=
  { newJob 0 4 .sagList 0 false (.station 5) [] 0 with state := st, askSends := 1, answerTimer := some 40000000 }

/-- A station with that job. -/
def withJob (j : Job) : State := { live with rep := { jobs := [j], lastJob := 4 } }

/-- A print queue entry of station 5's job 4. -/
def ask5 (p : Bool) : QueueEntry := ⟨.station 5, 4, .sagList, false, 0, p⟩

/-- A printer service with a queue, in a state, with a buffer. -/
def withPrinter (st : ServiceState) (q : List QueueEntry) (b : List (List Byte)) : State :=
  { live with prn := { freshPrinter true with state := st, queue := q, buffer := b, trailer := none,
                                              inactivity := some 200000000, goTimer := some 40000000 } }

/-- A beacon's fields, from a LOCKED station with a printer. -/
def info : BeaconInfo := ⟨36, 1, 2, 1000, 1, 49992, 1⟩

/-- A roster with stations 5 and 6. -/
def withRoster (s : State) : State :=
  { s with line := { s.line with roster := [⟨5, 0, some 0, some info⟩, ⟨6, 0, some 0, some info⟩] } }

/-- A SURVEY OPEN for survey 37 with every value at the lower end of its range. -/
def open37 : SurveyOpenFrame := ⟨37, 500, 50, 5000, 100, 10500, 50, 1, 25, 0, 0, 0, 0, 0, []⟩

/-- A NOTE, an OBSERVATION of 5 minutes with id 9. -/
def note9 : NoteFrame := ⟨9, 2, 5, 0, []⟩

/-- An own event with a related list. -/
def anEvent (related : List (Nat × Nat)) : OpenEvent :=
  ⟨1, 0, .locked, .sag, [2], some (6190, 1), some (11040, 3), false, [], 65535, false, related, none, false⟩

/-- A capture slot. -/
def aSlot (kind : CapKind) (post : Nat) : Slot :=
  ⟨1, false, kind, 0, 5, 8, 0, 0, 0, post, 7, .locked, 800000, false, 0, false, 0, .opened, false, [], 1⟩

/-- A block of a 50 Hz survey. -/
def aBlock (taken : Nat) (tb ev judged : Bool) : Block :=
  { freshBlock 6 1 0 false with taken := taken, tbMark := tb, evMark := ev, judged := judged }

/-! ## Witnesses of the statements' hypotheses -/

theorem witness_StepRunsFrontCommand :
    { State.reset with pending := [.lineIdle, .paperIn] }.pending = .lineIdle :: [.paperIn] ∧ State.reset.pending = [] :=
  ⟨rfl, rfl⟩

theorem witness_CommandsLeaveTheQueue : exec .lineIdle State.reset = .next State.reset := rfl

theorem witness_MemoryFormKept : live.memoryOk ∧ step live = .next live.tick := ⟨reset_memory_wf, rfl⟩

theorem witness_TransmitQueueKept : (withQueue 8 (.go 4)).lineOk ∧ step (withQueue 8 (.go 4)) = .next (withQueue 8 (.go 4)).tick := by
  refine ⟨?_, rfl⟩
  unfold State.lineOk
  decide

theorem witness_PrinterServiceKept :
    (withPrinter .printing [ask5 true] [[], []]).prn.ok ∧ step (withPrinter .printing [ask5 true] [[], []]) =
      .next (withPrinter .printing [ask5 true] [[], []]).tick := by
  refine ⟨?_, rfl⟩
  unfold Printer.ok
  decide

/-- A station with a SEALED record that a job lists, a FILLING one, and a capture of it. -/
def busy : State :=
  { live with
    store := { live.store with last := 8, dir := [{ oneRecord true [128] 1 with pins := 1 },
      { oneRecord false [129, 130] 0 with index := 1, img := { (oneRecord false [129, 130] 0).img with record := 8, tag := .waveform } }] }
    rep := { jobs := [{ job5 .queued with records := [7] }], lastJob := 4 }
    cap := { ring := [], slots := [{ aSlot .companion 3 with record := 8 }] } }

theorem witness_TablesKeepTheirSizes :
    step live = .next live.tick ∧ notesOk live.notes ∧ live.bounded ∧ live.ctr.ok ∧ slotsOk busy.cap.slots := by
  refine ⟨rfl, ?_, ?_, ?_, ?_⟩
  · unfold notesOk; decide
  · unfold State.bounded; decide
  · unfold Counters.ok; decide
  · unfold slotsOk; decide

theorem witness_directoryOk : busy.directoryOk := by
  unfold State.directoryOk
  refine ⟨by decide, by decide, by decide, by decide, ?_, by decide⟩
  intro x hx d hd
  simp only [busy, live, State.reset, resetRegion, List.mem_cons, List.not_mem_nil, or_false] at hx
  rcases hx with rfl | rfl | rfl | rfl | rfl <;> simp [SysContent.cell] at hd

theorem witness_pinsOk : busy.pinsOk := by
  unfold State.pinsOk
  decide

theorem witness_FramesComeBackWhole :
    (Instr.note rx5 ⟨9, 2, 5, 0, List.replicate 40 65⟩).wellFormed = true ∧
      (frameOf 2 (Instr.note rx5 ⟨9, 2, 5, 0, List.replicate 40 65⟩)).isSome = true := by decide

theorem witness_HandingOverAFrame :
    (Payload.go 4).isBeacon = false ∧ { live.line with muted := true }.muted = true ∧
    ((withQueue 7 (.go 4)).line.muted = false ∧ (withQueue 7 (.go 4)).line.queue.length < 8) ∧
    (8 ≤ (withQueue 8 (.go 4)).line.queue.length ∧
      ∀ f ∈ (withQueue 8 (.go 4)).line.queue, f.sending = false → f.payload.priority ≤ (Payload.go 4).priority) ∧
    ((withQueue 8 (.printAsk 4 1 0)).line.queue = List.replicate 7 (waits (.printAsk 4 1 0)) ++ waits (.printAsk 4 1 0) :: [] ∧
      (Payload.go 4).priority < (waits (.printAsk 4 1 0)).payload.priority) := by decide

/-- A beacon handed over beside an earlier one that waits, and to a queue full of other frames; copies of an ask that wait and
that are under transmission. -/
theorem witness_HandingOverAFrame_beacon :
    (Payload.beacon none).isBeacon = true ∧ (withQueue 8 (.beacon none)).line.muted = false ∧
      ((withQueue 8 (.beacon none)).line.queue.filter fun f => !f.payload.isBeacon || f.sending).length < 8 ∧
      8 ≤ ((withQueue 8 (.go 4)).line.queue.filter fun f => !f.payload.isBeacon || f.sending).length ∧
      isAskOf 4 (waits (.printAsk 4 1 0)).payload = true ∧ { waits (.printAsk 4 1 0) with sending := true }.sending = true ∧
      isAskOf 4 (waits (.go 4)).payload = false := by decide

theorem witness_RestartLeavesTheBlocks :
    let parked := { live with mode := .parked, sup := { live.sup with releaseTimer := some 4000000 } }
    live.pins.supplyWarn = false ∧ live.mode ≠ .off ∧ parked.sup.releaseTimer = some 4000000 ∧
      (parked.passTo 4000000).parkingDone = true ∧ { live with pins := ⟨true, true, false⟩ }.pins.supplyWarn = true ∧
      { live with pins := ⟨true, true, false⟩ }.mode ≠ .off := by decide

/-- Parking whose restart is left for its last write. -/
def restartIsDue (more : List StoreWrite) : State :=
  { live with mode := .parked, sup := { live.sup with restartDue := some ⟨⟨1, true, true⟩, []⟩ },
              store := { live.store with writes := .header live.hdr false :: more } }

/-- SEALED records 7 and 8, of one page each: a NOTE with id 9 of kind SITE, and an INTERVAL. -/
def twoRecords : Store :=
  let note := oneRecord true [128] 1
  { live.store with
    dir := [note, { note with index := 1, img := { note.img with record := 8, tag := .interval, pages := [129] } }]
    last := 8
    nv := { live.store.nv with mem := [⟨128 * 1024 + 1, 1⟩, ⟨128 * 1024 + 5, 9⟩, ⟨129 * 1024 + 5, 2⟩] } }

theorem witness_RestartLeavesTheBlocks_due :
    (restartIsDue []).mode = .parked ∧ (restartIsDue []).sup.restartDue = some ⟨⟨1, true, true⟩, []⟩ ∧
      (restartIsDue []).sup.parkWait = false ∧ (restartIsDue []).sup.sealing = none ∧ (restartIsDue []).pins.supplyWarn = false ∧
      (restartIsDue []).store.writes = .header live.hdr false :: [] ∧ [StoreWrite.sys (.ctl true) false] ≠ [] ∧
      (restartIsDue []).sup.opening = none ∧ endsAWrite (.systemWriteComplete true) ∧ Region.header ⟨[], []⟩ = none ∧
      Region.readBad ⟨[], []⟩ = none :=
  ⟨by decide, by decide, by decide, by decide, by decide, by decide, by decide, by decide, ⟨true, .inr (.inl rfl)⟩, rfl, rfl⟩

/-- Two live NOTE records of one id: each makes its entry, with its own record number (R153; log 65). -/
theorem test_rebuild_one_id :
    let note := oneRecord true [128] 1
    let st := { twoRecords with
      dir := [note, { note with index := 1, img := { note.img with record := 8, pages := [129] } }]
      nv := { twoRecords.nv with mem := [⟨128 * 1024 + 1, 1⟩, ⟨128 * 1024 + 5, 9⟩, ⟨129 * 1024 + 1, 2⟩, ⟨129 * 1024 + 5, 9⟩] } }
    (st.rebuildNotes 0).map (fun e => (e.id, e.site, e.record)) = [(9, true, some 7), (9, false, some 8)] := by decide +kernel

theorem witness_RestartLeavesTheBlocks_records :
    (twoRecords.dir.map (·.index)).Nodup ∧ (twoRecords.dir.map (·.img.record)).Nodup ∧
      (let l := twoRecords.dir.filter fun e => e.img.tag == .note && e.img.sealed && e.img.outcome != .lostPower
       l.Pairwise (fun a b => a.img.record < b.img.record) ∧
        (∀ e ∈ lastOf 32 l, twoRecords.field e.img 1 1 = 1) ∧
        ((lastOf 32 l).filter fun e => twoRecords.field e.img 1 1 == 1).length ≤ 4) ∧
      (∃ e ∈ twoRecords.dir, e.img.tag = .interval ∧ e.img.sealed = true ∧ e.img.outcome ≠ .lostPower) := by decide +kernel

theorem witness_SupplyWarnParks :
    live.mode = .running ∧ live.sup.opening = none ∧ live.sup.sealing = none ∧ live.store.pageUnderWay = false ∧
      (∀ sl ∈ live.cap.slots, sl.running = false) ∧
      (withRecord (oneRecord false [128] 0) [.page 7 0 [] .seal]).store.pageUnderWay = true := by decide

/-- A station whose page write is under way, and one whose record's second failure is being settled. -/
def pageWaits : State := withRecord (oneRecord false [128] 0) [.page 7 0 [] .seal]

def pageSettles : State :=
  let s := withRecord { oneRecord false [128] 0 with fails := 1 } [.sys (.bad false) false, .sys (.bad true) false]
  { s with store := { s.store with bad := [128], retiring := some ⟨0, 0, 128, true, false⟩ } }

theorem witness_endsPageWrite :
    pageWaits.endsPageWrite (.pageWriteComplete true) ∧ pageSettles.endsPageWrite (.systemWriteComplete true) ∧
      endsAWrite (.headerWriteComplete false) :=
  ⟨.inl ⟨rfl, by decide, 7, 0, [], .seal, [], rfl⟩,
   .inr ⟨true, false, false, [.sys (.bad true) false], _, rfl, rfl, rfl, rfl, rfl, .inl rfl⟩, false, .inr (.inr rfl)⟩

/-- Parking that waits for a page write, and parking asked for while an acceptance waits for one, at a match and at the settling
of a second failure. -/
theorem witness_SupplyWarnParks_waits :
    ∀ s ∈ [pageWaits, pageSettles],
      let parked := { s with mode := .parked, sup := { s.sup with parkWait := true } }
      let q : OpenRequest := ⟨5, 37, defaultParams, false, 0⟩
      let opening := { s with sup := { s.sup with opening := some q, parkDue := true } }
      (parked.sup.restartDue = none ∧ parked.sup.sealing = none ∧ parked.mode = .parked ∧ parked.sup.opening = none ∧
        parked.sup.parkWait = true) ∧
      (opening.mode = .running ∧ opening.sup.opening = some q ∧ opening.sup.parkDue = true ∧ opening.sup.parkWait = false ∧
        opening.sup.restartDue = none ∧ opening.sup.sealing = none) := by decide

theorem witness_ReleaseTimerStartsAndIsCancelled :
    let parked := { live with mode := .parked, pins := ⟨true, true, false⟩, sup := { live.sup with releaseTimer := some 4000000 },
                              store := { live.store with writes := [.header live.hdr false] } }
    parked.mode = .parked ∧ parked.pins.supplyWarn = true ∧ parked.sup.releaseTimer = some 4000000 ∧
      (parked.passTo 4000000).parkingDone = false := by decide

theorem witness_ParametersInForce :
    wasClamped open37 = false ∧ wasClamped { open37 with un := 499 } = true ∧ ({ open37 with hz := 54 }.hz.toNat < 55) ∧
      55 ≤ { open37 with hz := 55 }.hz.toNat ∧ { open37 with label := [0x1F] }.label[0]? = some 0x1F := by decide

/-- R3, R200: each limit of a clamped value, the frequency on both sides of 55, and a label of four characters. -/
theorem test_parameters :
    (Params.ofFrame { open37 with un := 499, ts := 9501, hz := 54, send := 2, label := [0x1F, 0x20, 0x7E, 0x7F] }).un = 500 ∧
      (Params.ofFrame { open37 with ts := 9501 }).ts = 9500 ∧ (Params.ofFrame { open37 with hz := 54 }).hz = 50 ∧
      (Params.ofFrame { open37 with hz := 55, send := 2 }).hz = 60 ∧ (Params.ofFrame { open37 with send := 2 }).send = true ∧
      (Params.ofFrame { open37 with label := [0x1F, 0x20, 0x7E, 0x7F] }).label = [0x3F, 0x20, 0x7E, 0x3F] := by decide

theorem witness_SurveyOpenAccepted :
    State.reset.takes rx5 ∧ (inState .closed).takes rx5 ∧ open37.WellFormed ∧ open37.number ≠ 0 ∧ State.reset.hdr.state = .idle ∧
      (inState .closed).hdr.state = .closed ∧ open37.number.toNat ≠ (inState .closed).hdr.number ∧ State.reset.rep.jobs = [] ∧
      State.reset.store.pageUnderWay = false := by
  unfold State.takes
  decide

/-- The acceptance with jobs held, one past ASKED, and with a page write under way, and the end of that write. -/
theorem witness_SurveyOpenAccepted_waits :
    let closed := { inState .closed with rep := ⟨[job5 .asked, { job5 .sending with entry := 1, number := 5 }], 5⟩ }
    let busy := { inState .closed with store := (withRecord (oneRecord false [128] 0) [.page 7 0 [] .seal]).store }
    let waiting := { busy with sup := { live.sup with opening := some ⟨5, 37, Params.ofFrame open37, false, 0⟩ } }
    (closed.takes rx5 ∧ closed.hdr.state = .closed ∧ open37.number.toNat ≠ closed.hdr.number ∧ closed.store.pageUnderWay = false ∧
      ∀ j ∈ closed.rep.jobs, j.printer ≠ .own) ∧
    (busy.takes rx5 ∧ busy.hdr.state = .closed ∧ open37.number.toNat ≠ busy.hdr.number ∧ busy.store.pageUnderWay = true ∧
      busy.rep.jobs = []) ∧
    (waiting.mode = .running ∧ waiting.sup.opening = some ⟨5, 37, Params.ofFrame open37, false, 0⟩ ∧
      waiting.sup.parkDue = false ∧ waiting.sup.restartDue = none ∧ waiting.sup.sealing = none ∧
      waiting.store.writes = .page 7 0 [] .seal :: [] ∧ waiting.store.retiring = none) := by
  unfold State.takes
  decide

theorem witness_SurveyCommandsRefusedOrIgnored :
    (inState .closed).takes rx5 ∧ live.takes rx5 ∧ { open37 with number := 0 }.WellFormed ∧ { open37 with number := 36 }.number ≠ 0 ∧
      { open37 with number := 36 }.number.toNat = (inState .closed).hdr.number ∧ live.hdr.state = .recording ∧
      (37 : BitVec 16).toNat ≠ live.hdr.number := by
  unfold State.takes
  decide

/-- A station with an own event open, two RUNNING captures, one with a partly filled page and one whose page list is to be
shortened, and a counted interval. -/
def measuring : State :=
  let e := { oneRecord false [128, 129] 1 with img := { (oneRecord false [128, 129] 1).img with tag := .waveform } }
  let s := withRecord e []
  { s with
    ev := ⟨some (anEvent []), 2⟩
    cap := ⟨[], [{ aSlot .own 3 with buf := [1] }, { aSlot .own 3 with num := 2, record := 8 }]⟩
    har := { live.har with accum := some { Accum.begin (aBlock 1280 false false true) with m := 1 } }
    store := { s.store with
      dir := [e, { e with index := 1, img := { e.img with record := 8, pages := [130, 131] } }], last := 8 } }

theorem witness_SurveyCloseCloses :
    live.takes rx5 ∧ live.measuring = true ∧ (36 : BitVec 16).toNat = live.hdr.number ∧ measuring.takes rx5 ∧
      measuring.measuring = true ∧ measuring.ev.event = some (anEvent []) ∧ (measuring.cap.slots.map (·.num)).Nodup ∧
      (∀ sl ∈ measuring.cap.slots, sl.running = true) ∧ measuring.har.accum.isSome = true ∧
      (measuring.store.dir.map (·.img.record)).Nodup ∧ (measuring.cap.slots.map (·.record)).Nodup ∧
      measuring.store.entryOf 8 = measuring.store.dir[1]? ∧ 1 < [130, 131].length ∧ measuring.store.pageUnderWay = false ∧
      (∀ sl ∈ live.cap.slots, sl.running = false) := by
  unfold State.takes
  decide

/-- The commands one after the other, for as long as each answers a next state. -/
def afterAll (cs : List Instr) (s : State) : State :=
  cs.foldl (fun s c => match exec c s with
    | .next t => t
    | _ => s) s

/-- The page and header writes that wait: record, position, and the byte at offset 6 of a record's last page; a header with its
state. -/
def shownWrites (s : State) : List (Nat × Nat × Option Byte) :=
  s.store.writes.filterMap fun w => match w with
    | .page r pos bs next => some (r, pos, if next = .seal then bs[6]? else none)
    | .header h _ => some (0, 0, some (BitVec.ofNat 8 h.state.code))
    | .sys .. => none

/-- A close hands over the summary and what closes the captures, and stays there: RECORDING, with no answer, while a STATION QUERY
is answered and a further SURVEY CLOSE waits with the first (R1, R6, R95; log 63). -/
theorem test_close_seals :
    let t := afterAll [.surveyClose rx5 36, .stationQuery rx5, .surveyClose ⟨6, 15⟩ 36] measuring
    shownWrites t = [(9, 0, some 0), (7, 1, none), (8, 0, some 3)] ∧ t.sup.sealing = some ⟨[7, 8], .close [5, 6]⟩ ∧
      t.hdr.state = .recording ∧ t.line.queue.map (·.payload.priority) = [2] := by
  decide +kernel

/-- The write that ends the last closing write is followed by the interval, which takes page 131, just released by record 8, the
header and the answer (R6, R7, R95, R130). -/
theorem test_close_ends :
    let t := afterAll (.surveyClose rx5 36 :: List.replicate 4 (.pageWriteComplete true)) measuring
    shownWrites t = [(10, 0, some 0), (0, 0, some 3)] ∧ t.sup.sealing = none ∧ t.hdr.state = .closed ∧ t.cap.slots = [] ∧
      (t.store.entryOf 10).map (·.img.pages) = some [131] ∧ t.line.queue.map (·.payload) = [.requestAnswer 2 0 0 false] := by
  decide +kernel

/-- A close, and parking, that wait for the closing writes of the captures they sealed. -/
theorem witness_SurveyCloseCloses_waits :
    let closing := { measuring with sup := { measuring.sup with sealing := some ⟨[7, 8], .close [5]⟩ } }
    let parking := { measuring with mode := .parked, sup := { measuring.sup with sealing := some ⟨[7, 8], .park⟩ } }
    closing.mode = .running ∧ closing.sup.restartDue = none ∧ closing.sup.opening = none ∧ closing.sup.parkWait = false ∧
      closing.sup.parkDue = false ∧ { closing.sup with parkDue := true }.parkDue = true ∧ parking.mode = .parked ∧
      parking.sup.restartDue = none ∧ parking.sup.opening = none ∧ parking.sup.parkWait = false ∧ closing.takes rx5 ∧
      closing.inSurvey = true ∧ (36 : BitVec 16).toNat = closing.hdr.number := by
  unfold State.takes
  decide

theorem witness_SurveyTimersWriteTheHeader : live.inSurvey = true ∧ live.sup.sealing = none ∧ live.ckpt = some 400000000 ∧
    (let closing := { measuring with sup := { measuring.sup with sealing := some ⟨[7, 8], .close [5]⟩ } }
     closing.inSurvey = true ∧ closing.sup.sealing ≠ none ∧ closing.ckpt = some 400000000) := by decide

theorem witness_InstantIsTaken :
    live.measuring = true ∧ live.tb.state ≠ .stopped ∧ live.ev.event = none ∧ live.hdr.params.send = true ∧
      { live with ev := ⟨some (anEvent []), 2⟩ }.ev.event ≠ none ∧ live.lev.chans[5]? = some freshChan ∧
      (live.fitted ⟨0, 0, 0, 0, 0, 1⟩)[5]? = some 1 ∧ freshChan.window.length ≤ 128 ∧
      { freshChan with window := List.replicate 128 1, sumSq := 128 }.sumSq = ((List.replicate 128 (1 : Int)).map square).sum ∧
      boundaryDue live.tb.nextIndex (min (live.lev.count + 1) 128) = false ∧ (aSlot .own 2047).running = true ∧
      (aSlot .own 2048).running = false ∧ ((aSlot .own 3).buf ++ instantBytes [1]).length < 1024 ∧
      1024 ≤ ({ aSlot .own 3 with buf := List.replicate 1022 0 }.buf ++ instantBytes [1]).length := by decide +kernel

/-- The boundary, the block and the sums of an instant. -/
theorem witness_InstantIsTaken_boundary :
    boundaryDue 63 128 = true ∧ boundaryDue 63 127 = false ∧
      (aBlock 1279 false false true).taken < blockInstants live.hdr.params.hz ∧ live.har.current = none ∧ live.tb.nextIndex = 0 ∧
      { live.tb with index := some 0 }.nextIndex ≠ 0 ∧
      (aBlock 0 false false true).sums.length = 6 ∧ (List.replicate 40 ((0, 0) : Int × Int))[39]? = some (0, 0) := by decide +kernel

/-- A station one instant before a boundary at which its voltages are found INTERRUPTED. -/
def atBoundary : State :=
  { live with tb := { live.tb with index := some 62 }, lev := { live.lev with count := 127 } }

/-- A TRIGGER from station 5. -/
def trigger12 : TriggerFrame := ⟨36, 12, 2, 0⟩

/-- A TRIGGER during the boundary's instant, and one outside measurement. -/
theorem witness_InstantIsTaken_between :
    { live with mode := .parked }.measuring = false ∧ { live with tb := { live.tb with state := .stopped } }.tb.state = .stopped ∧
      boundaryDue atBoundary.tb.nextIndex (min (atBoundary.lev.count + 1) 128) = true ∧ atBoundary.ev.event = none ∧
      ((atBoundary.lev.take [0, 0, 0, 0, 0, 0]).report atBoundary.hdr.params 0).worst.isSome = true ∧
      (afterAll [.trigger rx5 trigger12] atBoundary).companions.getLast?.map (·.post) = some 0 := by decide +kernel

/-- The offsets of converted captures, the pairs of the open event's related origins, and companions opened. -/
def captured (t : State) : List (List Nat) :=
  [(t.cap.slots.filter (·.converted)).map (·.offset),
    ((t.ev.event.map OpenEvent.related).getD []).flatMap fun p => [p.1, p.2], [t.ctr.companionsOpened]]

/-- R93, with the TRIGGER first: its companion is converted with offset 0 as the event opens, or with offset 1 where it opened
before the boundary's instant. With the opening first its pair is offered and no companion opens. -/
theorem test_trigger_and_opening :
    captured (afterAll [.instant ⟨⟨0, 0, 0, 0, 0, 0⟩, some (rx5, trigger12)⟩] atBoundary) = [[0], [5, 12], [1]] ∧
      captured (afterAll [.trigger rx5 trigger12, .instant ⟨⟨0, 0, 0, 0, 0, 0⟩, none⟩] atBoundary) = [[1], [5, 12], [1]] ∧
      captured (afterAll [.instant ⟨⟨0, 0, 0, 0, 0, 0⟩, none⟩, .trigger rx5 trigger12] atBoundary) = [[], [5, 12], [0]] := by
  decide +kernel

theorem witness_StrobesSpanThePeriod : { Timebase.start 50 0 with frac := 127 }.frac < 128 := by decide

theorem witness_LockedFollowsItsCrossings :
    let tb := { Timebase.start 50 0 with state := .locked, history := [695652, 941176] }
    let h := [800200, 800160, 800090, 800140, 800110, 800180, 800130, 800150]
    let held := { tb with state := .holdover, qual := 1, period := 800000 }
    (tb.state = .locked ∧ tb.history ≠ [] ∧ periodInRange 50 695652 = true ∧ periodInRange 50 941176 = true ∧
      (∀ h ∈ lastOf 4 tb.history, periodInRange 50 h = true) ∧ periodInRange 50 941177 = false) ∧
    ((Timebase.start 50 0).state = .free ∧ h.length = 8 ∧ (∀ a ∈ h, periodInRange 50 a = true) ∧
      (∀ a ∈ h, ∀ b ∈ h, a - b ≤ h.sum / 8 * 5 / 1000) ∧ (Timebase.start 50 0).history.length ≠ 8) ∧
    (held.state = .holdover ∧ periodInRange 50 816000 = true ∧ 816000 ≤ held.period + held.period * 2 / 100 ∧
      held.period ≤ 816000 + held.period * 2 / 100 ∧ held.qual = 1 ∧ 2 ≤ held.history.length ∧
      ¬816001 ≤ held.period + held.period * 2 / 100 ∧ { held with qual := 0 }.qual ≠ 1) ∧
    (let states : List ChState := [.interrupted, .interrupted, .sagged]
     states.length = 3 ∧ tb.ref < 3 ∧ states[tb.ref]? = some .interrupted ∧ states[2]? ≠ some .interrupted ∧
      (∀ q, q < 2 → states[q]? = some .interrupted) ∧ ([.normal, .interrupted, .sagged] : List ChState)[tb.ref]? ≠ some .interrupted) := by
  decide +kernel

/-- A crossing of the reference channel with both marks set by earlier samples, one that its own sample arms, and one unarmed. -/
theorem witness_LockedFollowsItsCrossings_watch :
    let tb := { Timebase.start 50 0 with prev := some (0, [-460, 0, 0]), armLow := true }
    (Timebase.start 50 0).prev = none ∧ tb.prev = some (0, [-460, 0, 0]) ∧ ([-460, 0, 0] : List Int).getD tb.ref 0 < 0 ∧
      0 ≤ ([460, 0, 0] : List Int).getD tb.ref 0 ∧ (tb.armLow = true) ∧
      (((2300 / 5 : Nat) : Int) ≤ ([460, 0, 0] : List Int).getD tb.ref 0) ∧
      ¬((2300 / 5 : Nat) : Int) ≤ ([459, 0, 0] : List Int).getD tb.ref 0 ∧ tb.armHigh = false ∧ tb.lastCrossing = none ∧
      tb.state ≠ .locked ∧ { tb with lastCrossing := some 0 }.lastCrossing = some 0 := by decide

theorem witness_TimebaseTimersHoldAndChoose :
    let locked := { live with tb := { live.tb with state := .locked, lastCrossing := some 0 } }
    let held := { live with tb := { live.tb with state := .holdover, held := 2048 } }
    let peer := withRoster { live with tb := { live.tb with state := .peer, source := some 5 } }
    (locked.inSurvey = true ∧ locked.tb.state = .locked ∧ locked.tb.lastCrossing = some 0) ∧
      (held.inSurvey = true ∧ held.tb.state = .holdover ∧ 2048 ≤ held.tb.held) ∧
      (peer.inSurvey = true ∧ peer.tb.state = .peer ∧ peer.tb.source = some 5 ∧
        (peer.line.entryOf 5).bind (·.lastBeacon) = some 0) := by decide

theorem witness_PeerChoiceIsLowestQualifying :
    (withRoster live).line.roster.Pairwise (fun a b => a.station < b.station) ∧ (withRoster live).peerChoice = some (5, 49992) ∧
      live.peerChoice = none ∧
      (let far := { live with line := { live.line with roster := [⟨5, 0, some 0, some { info with tbState := 2 }⟩] } }
       far.peerChoice = none ∧ far.line.roster ≠ []) := by
  decide

/-- Each row of the tables of R50 to R52 at a bound of its range, with the parameters of chapter 3.6. -/
theorem witness_ChannelStatesFollowTheTables :
    let p := { defaultParams with un := 2500, ts := 9000, ti := 1000, tw := 11000, h := 200 }
    let after := fun st l => (reportVolt p { freshChan with sumSq := 128 * (l * l) } ⟨none, st⟩)
    (p.ti + p.h < p.ts ∧ p.ts + p.h ≤ 10000 ∧ 10000 ≤ p.tw - p.h) ∧
    ([(.normal, 999, .interrupted), (.normal, 1000, .sagged), (.normal, 9000, .normal), (.normal, 11000, .normal),
      (.normal, 11001, .swollen), (.sagged, 999, .interrupted), (.sagged, 9199, .sagged), (.sagged, 9200, .normal),
      (.sagged, 11001, .swollen), (.interrupted, 1199, .interrupted), (.interrupted, 1200, .sagged),
      (.interrupted, 9200, .normal), (.interrupted, 11001, .swollen), (.swollen, 10801, .swollen), (.swollen, 10800, .normal),
      (.swollen, 8999, .sagged), (.swollen, 999, .interrupted)] : List (ChState × Nat × ChState)).all
      (fun x => (after x.1 x.2.1).level == x.2.1 && (after x.1 x.2.1).after == x.2.2) = true := by decide +kernel

theorem witness_TriggerOfferedOrIgnored :
    let f : TriggerFrame := ⟨36, 8, 2, 0⟩
    let pairs := [(2, 1), (3, 1), (4, 1), (6, 1)]
    live.takes rx5 ∧ live.measuring = true ∧ f.number.toNat = live.hdr.number ∧ live.hdr.params.accept = true ∧
      ((5, 8) ∉ (anEvent (pairs.take 3)).related ∧ (anEvent (pairs.take 3)).related.length < 4) ∧
      ((5, 8) ∉ (anEvent pairs).related ∧ 4 ≤ (anEvent pairs).related.length) ∧ (5, 8) ∈ (anEvent [(5, 8)]).related ∧
      (∃ sl ∈ [aSlot .companion 2047], sl.running = true ∧ sl.kind = .companion ∧ sl.station = 5) ∧
      State.reset.takes rx5 ∧ State.reset.measuring = false := by
  unfold State.takes
  decide

theorem witness_TriggerOpensACompanion :
    live.takes rx5 ∧ live.ev.event = none ∧
      (∀ sl ∈ live.cap.slots, ¬(sl.running = true ∧ sl.kind = .companion ∧ sl.station = 5)) ∧ freeSlot live.cap.slots = some 1 ∧
      (live.create ⟨.waveform, some .companion, none, plannedPages live.cap.ring.length live.channels⟩).2 = some 1 ∧
      freeSlot [aSlot .own 3, { aSlot .own 3 with num := 2 }, { aSlot .own 3 with num := 3 }] = none ∧
      (let full := { live with store := { live.store with last := 4294967295 } }
       freeSlot full.cap.slots = some 1 ∧
        (full.create ⟨.waveform, some .companion, none, plannedPages full.cap.ring.length full.channels⟩).2 = none) := by
  unfold State.takes
  decide +kernel

/-- A boundary report whose second channel has a state. -/
def aReport (st : ChState) : BoundaryReport :=
  ⟨1000, [⟨10000, .normal, .normal, false⟩, ⟨6190, .normal, st, false⟩, ⟨10000, .normal, .normal, false⟩], []⟩

theorem witness_EventsGatherTheirBoundaries :
    (∃ v ∈ (aReport .interrupted).volts, v.after = .interrupted) ∧ (∃ v ∈ (aReport .swollen).volts, v.after = .swollen) ∧
    (¬∃ v ∈ (aReport .swollen).volts, v.after = .interrupted ∨ v.after = .sagged) ∧
    (∀ v ∈ (aReport .normal).volts, v.after = .normal) ∧ { anEvent [] with duration := 0 }.duration = 0 ∧
    (anEvent []).duration = 65535 ∧ { anEvent [] with peaks := [7] }.peaks[0]? = some 7 ∧
    { aReport .sagged with currents := [⟨9, true⟩] }.currents[0]? = some ⟨9, true⟩ ∧
    2 ∈ (anEvent []).involved ∧ 2 ∈ [1, 2, 3] ∧ (anEvent []).residual = some (6190, 1) ∧ (anEvent []).maximum = some (11040, 3) ∧
    (aReport .sagged).volts[1]? = some ⟨6190, .normal, .sagged, false⟩ ∧
    (∀ v ∈ (aReport .sagged).volts, v.after = .sagged ∨ v.after = .interrupted → 6190 ≤ v.level) ∧
    (live.ev.event = none ∧ (aReport .sagged).worst = some .sag ∧ (aReport .normal).worst = none ∧
      { live with ev := ⟨some (anEvent []), 2⟩ }.ev.event = some (anEvent [])) ∧
    (let s := { live with cap := ⟨[], [aSlot .companion 1024]⟩ }
     s.cap.slots.length ≤ 4 ∧ (aSlot .companion 1024).running = true ∧ s.companions.getLast? = some (aSlot .companion 1024) ∧
      (aSlot .companion 1024).post ≤ 1024) ∧
    (let s := { live with cap := ⟨[], [aSlot .companion 1025]⟩ }
     s.companions.getLast? = some (aSlot .companion 1025) ∧ 1024 < (aSlot .companion 1025).post ∧ freeSlot s.cap.slots = some 2 ∧
      (s.create ⟨.waveform, some .own, none, plannedPages s.cap.ring.length s.channels⟩).2 = some 1) ∧
    (live.create ⟨.sag, none, none, 1⟩).2 = some 1 ∧
    (let full := { live with store := { live.store with last := 4294967295 } }
     (full.create ⟨.sag, none, none, 1⟩).2 = none ∧
       (full.create ⟨.waveform, some .own, none, plannedPages full.cap.ring.length full.channels⟩).2 = none) := by decide +kernel

theorem witness_CaptureIsSealedComplete :
    (live.measuring = true ∧ aSlot .own 2048 ∈ [aSlot .own 2048] ∧ (aSlot .own 2048).num = (0 : Fin 3).val + 1 ∧
      (aSlot .own 2048).closing = false ∧ 2048 ≤ (aSlot .own 2048).post ∧
      (∀ x ∈ [aSlot .own 2048], x.num = (aSlot .own 2048).num → x = aSlot .own 2048) ∧
      { aSlot .own 2048 with buf := [1] }.buf ≠ [] ∧ (aSlot .own 2048).buf = [] ∧
      (withRecord (oneRecord false [128, 129] 0) []).store.entryOf 7 = some (oneRecord false [128, 129] 0)) ∧
    (let own := fun n level : Nat => { aSlot .own 3 with num := n, level := level, record := n }
     let slots := [own 1 2, own 2 1, own 3 1]
     freeSlot slots = none ∧ freeSlot [own 1 2] = some 2 ∧ own 2 1 ∈ slots ∧ (own 2 1).running = true ∧ (own 2 1).level < 3 ∧
      (∀ x ∈ slots, x.running = true → x.level < 3 → x ≠ own 2 1 →
        (own 2 1).level < x.level ∨ ((own 2 1).level = x.level ∧ (own 2 1).record < x.record)) ∧
      ∀ sl ∈ slots, sl.running = true → 1 ≤ sl.level) ∧
    ((withRecord (oneRecord false [128, 129] 0) []).store.entryOf (aSlot .own 3).record = some (oneRecord false [128, 129] 0) ∧
      (withRecord (oneRecord false [128, 129] 0) []).store.used.Nodup ∧ 129 ∈ [128, 129].drop (aSlot .own 3).nextPos ∧
      isDataPage 129) := by decide +kernel

theorem witness_BlocksFillAndSettleOnce :
    let accum := Accum.begin (aBlock 1280 false false true)
    live.inSurvey = true ∧ blockInstants live.hdr.params.hz ≤ (aBlock 1280 false false true).taken ∧
      (aBlock 1280 false false true).results = none ∧ accum.counted + 1 < 3000 ∧ (aBlock 1280 true true true).judged = true ∧
      (aBlock 1280 true true true).tbMark = true ∧ (aBlock 1280 false true true).evMark = true ∧
      (aBlock 1280 false false false).judged = false ∧ live.har.accum = none ∧ live.hdr.params.k ≤ accum.counted + 1 ∧
      (live.create ⟨.interval, none, none, 1⟩).2 = some 1 := by decide +kernel

/-- The verdicts reach waiting blocks: an INSTANT that takes no crossing, and the state of a CROSSING_TIMEOUT, with a settling
block whose arithmetic is complete. -/
theorem witness_BlocksFillAndSettleOnce_verdict :
    let w := { aBlock 1280 false false false with results := some [] }
    let tb := { live.tb with state := .locked, lastCrossing := some 0 }
    let s := { live with tb := tb, har := { live.har with settling := some w, current := some (aBlock 1279 false false false) } }
    let a := s.har.accum.getD (Accum.begin w)
    s.measuring = true ∧ s.tb.state ≠ .stopped ∧ boundaryDue s.tb.nextIndex (min (s.lev.count + 1) 128) = false ∧
      s.har.current = some (aBlock 1279 false false false) ∧
      (aBlock 1279 false false false).taken < blockInstants s.hdr.params.hz ∧ s.har.settling = some w ∧ w.judged = false ∧
      w.results ≠ none ∧ (aBlock 1280 false false false).results = none ∧ a.counted + 1 < { s.hdr.params with k := 2 }.k ∧
      s.hdr.params.k ≤ a.counted + 1 ∧ s.tb.state = .locked ∧ s.tb.lastCrossing = some 0 ∧
      (s.tb.strobe.watch s.hdr.params.hz s.hdr.params.un s.tb.nextStrobe ((s.fitted ⟨0, 0, 0, 0, 0, 0⟩).map BitVec.toInt)).2 = .nothing ∧
      (let t := { s.tb with prev := some (0, [-460, 0, 0]), armLow := true, cycle := 127 }
       (t.strobe.watch s.hdr.params.hz s.hdr.params.un 1600000 ((s.fitted ⟨460, 0, 0, 0, 0, 0⟩).map BitVec.toInt)).2 = .judged true ∧
        ({ t with cycle := 90 }.strobe.watch s.hdr.params.hz s.hdr.params.un 1600000
          ((s.fitted ⟨460, 0, 0, 0, 0, 0⟩).map BitVec.toInt)).2 = .judged false) := by decide +kernel

theorem witness_PageWriteReadsBack : isDataPage 128 ∧ isDataPage 2047 := by decide

theorem witness_CreationGrantsFreePages :
    (State.reset.store.dir.map (·.index)).Nodup ∧
      (State.reset.store.create 0 480 ⟨.waveform, some .own, none, 31⟩).2 = ([], some 1) := by decide +kernel

/-- A store of two INTERVAL records and a pinned one, with 1917 pages FREE. -/
def threeIntervals : Store :=
  let rec' := fun (i n : Nat) (pins : Nat) => (⟨i, ⟨n, .interval, none, true, .none, 0, [128 + i], 1⟩, pins, 0, none, none, []⟩ : Entry)
  { live.store with dir := [rec' 0 3 0, rec' 1 4 0, rec' 2 5 1], last := 5 }

/-- A creation that takes the FREE pages and those of the candidates to the last, one that passes the quota, and one that finds
no INTERVAL candidate there. -/
theorem witness_CreationGrantsFreePages_room :
    let st := threeIntervals
    ((st.dir.map (·.index)).Nodup ∧ (∀ e ∈ st.dir, e.index < 1024) ∧ st.used.Nodup ∧ (∀ p ∈ st.used, isDataPage p ∧ p ∉ st.bad) ∧
      st.last < 4294967295 ∧ st.freePages.length = 1917 ∧ st.candidates.map (·.img.record) = [3, 4] ∧
      (st.create 0 480 ⟨.sag, none, none, 1919⟩).2.2 = some 6 ∧ (st.create 0 480 ⟨.sag, none, none, 1920⟩).2.2 = none) ∧
    (st.create 0 3 ⟨.interval, none, none, 1⟩).2.1.map (·.img.record) = [3] ∧
    (let held := { st with dir := st.dir.map fun e : Entry => { e with pins := 1 } }
     (∀ e ∈ held.dir, e.img.tag = .interval → e.img.sealed = false ∨ 0 < e.pins) ∧
      (held.create 0 3 ⟨.interval, none, none, 1⟩).2.2 = none) := by decide +kernel

theorem witness_ShortStoreRefuses :
    Tag.waveform ≠ .interval ∧
      State.reset.store.freePages.length + (State.reset.store.candidates.map fun e => e.img.pages.length).sum < 1921 := by
  decide +kernel

theorem witness_PageWriteVerified :
    let e := oneRecord false [128] 0
    let s := withRecord e [.page 7 0 [1, 2] .seal]
    s.mode = .running ∧ s.sup.opening = none ∧ s.sup.parkWait = false ∧ s.sup.restartDue = none ∧ s.sup.sealing = none ∧
      s.store.writes = .page 7 0 [1, 2] .seal :: [] ∧ s.store.entryOf 7 = some e ∧ (s.store.dir.map (·.index)).Nodup ∧
      (∀ x ∈ s.store.dir, x.img.record = 7 → x = e) ∧ e.img.sealed = false ∧ e.keep = none ∧ e.img.pages[0]? = some 128 ∧
      isDataPage 128 ∧ e.img.verified = 0 ∧ 0 + 1 = e.img.pages.length ∧ s.store.retiring = none := by decide

/-- The final header page of a WAVEFORM: a rewrite of position 0, verified before. -/
theorem witness_PageWriteVerified_rewrite :
    let e := oneRecord false [128, 129] 2
    let s := withRecord e [.page 7 0 [2] .seal]
    s.store.writes = .page 7 0 [2] .seal :: [] ∧ s.store.entryOf 7 = some e ∧ e.img.sealed = false ∧ e.keep = none ∧
      e.img.pages[0]? = some 128 ∧ e.img.verified ≠ 0 := by decide

/-- The other two ways a page write can go on: with the later pages left out, and at the last page. -/
theorem witness_PageWriteVerified_close :
    let e := oneRecord false [128, 129] 1
    let s := withRecord e [.page 7 1 [1, 2] (.close [2])]
    s.store.entryOf 7 = some e ∧ e.img.pages[1]? = some 129 ∧ e.img.verified = 1 ∧ 1 + 1 = e.img.pages.length ∧
      0 + 1 < (oneRecord false [128, 129] 0).img.pages.length ∧ PageNext.close [2] ≠ .seal := by decide

/-- A record of a tag whose page at position 1 a write has failed, with the rest of the BAD list's write waiting. -/
def withRetiring (tag : Tag) : State :=
  let e := oneRecord false [128, 129] 1
  let s := withRecord { e with fails := 1, img := { e.img with tag := tag } }
    (.sys (.bad false) false :: ([.sys (.bad true) false] ++ [.page 7 1 [1, 2] .more]))
  { s with store := { s.store with bad := [129], retiring := some ⟨0, 1, 129, false, false⟩ } }

/-- The same record with the write that fails still waiting, at the record's second failure. -/
def failsAgain (tag : Tag) : State :=
  let e := oneRecord false [128, 129] 1
  withRecord { e with fails := 1, img := { e.img with tag := tag } } [.page 7 1 [1, 2] .more, .page 7 0 [2] .seal]

/-- A WAVEFORM whose second page write fails at a data page: its slot is FREE at once, and the page writes it still waits for are
not made, while the page stays IN USE (R96, R134). -/
theorem test_second_failure :
    let t := afterAll [.pageWriteComplete false] { failsAgain .waveform with cap := ⟨[], [aSlot .own 3]⟩ }
    t.cap.slots = [] ∧ t.store.writes.any StoreWrite.isPage = false ∧ t.store.pageState 129 = .inUse 0 ∧ t.store.badTotal = 0 ∧
      (∀ e ∈ t.store.dir, e.img.sealed = false) := by decide +kernel

/-- It is sealed STORE ERROR, its page BAD and counted, once a copy of the BAD list has been verified: 1918 pages are FREE, one IN
USE and one BAD (R121, R133, R134, R142). -/
theorem test_second_failure_settles :
    let t := afterAll [.pageWriteComplete false, .systemWriteComplete true] (failsAgain .waveform)
    (∀ e ∈ t.store.dir, e.img.sealed = true ∧ e.img.outcome = .storeError) ∧ t.store.pageState 129 = .bad ∧
      t.store.badTotal = 1 ∧ t.ctr.badPages = 1 ∧ t.store.freePages.length = 1918 ∧ t.store.used = [128] := by decide +kernel

/-- A WAVEFORM on pages 128 and 129 whose entry is written FILLING and whose final header page, with outcome COMPLETE, waits, with
a page write of a record removed behind it. -/
def lastWrite : State :=
  let e := oneRecord false [128, 129] 2
  let e := { e with img := { e.img with tag := .waveform, capKind := some .own }, opened := [2, 1, 1, 1, 0, 1] }
  let s := withRecord e [.page 7 0 [2, 1, 1, 3, 0, 1, 1] .seal, .page 8 0 [] .more]
  { s with store := { s.store with nv := s.store.written (.entry 0 (some 7)) } }

/-- A loss of supply after the final header page has been verified, and before the entry of the seal has been written, leaves the
entry FILLING, and the opening's level and outcome OPEN in the header page (R97, R98, R199). -/
theorem test_lost_power_shows_open :
    let t := afterAll [.pageWriteComplete true, .supplyLoss] lastWrite
    (t.store.nv.entry 0).map (·.sealed) = some false ∧ t.store.nv.mem.readRun (128 * 1024) 7 = [2, 1, 1, 1, 0, 1, 0] := by
  decide +kernel

/-- A WAVEFORM sealed LOST POWER whose header page was never verified shows OPEN over what its page held (R138, R199). -/
theorem test_lost_power_unwritten :
    let e := { oneRecord false [128, 129] 0 with img := { (oneRecord false [128, 129] 0).img with tag := .waveform } }
    let st := { (withRecord e []).store with nv := ⟨[], [⟨128 * 1024 + 5, 9⟩, ⟨128 * 1024 + 6, 9⟩]⟩ }
    st.losePower.nv.mem = [⟨128 * 1024 + 5, 9⟩] ∧ st.losePower.dir.map (·.img.pages) = [[128]] := by decide +kernel

/-- The final header page stands there until then (R95). -/
theorem test_final_header_stands :
    (afterAll [.pageWriteComplete true] lastWrite).store.nv.mem.readRun (128 * 1024) 7 = [2, 1, 1, 3, 0, 1, 1] := by decide +kernel

theorem witness_RestartLeavesTheBlocks_headers :
    let st := lastWrite.store
    let e := st.dir.headD (oneRecord false [] 0)
    e ∈ st.dir ∧ e.opened ≠ [] ∧ st.nv.entry e.index = some e.img ∧ e.img.sealed = false ∧ e.img.tag = .waveform ∧
      e.img.pages.head? = some 128 ∧ isDataPage 128 ∧ (∀ x ∈ st.dir, x = e) ∧
      st.writes.head? = some (.page 7 0 [2, 1, 1, 3, 0, 1, 1] .seal) := by decide +kernel

/-- A copy that was withdrawn while under transmission stays in the queue when it loses arbitration (R182). -/
theorem test_withdrawn_copy_stays :
    exec .arbitrationLost { live with line := { live.line with queue := [{ waits (.printAsk 4 1 0) with sending := true, noRetry := true }] } } =
      .next { live with line := { live.line with queue := [{ waits (.printAsk 4 1 0) with noRetry := true }] } } := rfl

/-- No replacement can be had where every data page is BAD and no record gives way. -/
theorem witness_FailedPageIsReplaced_none :
    let s := withRetiring .waveform
    let full := { s with store := { s.store with bad := dataPageList } }
    full.store.freePages = [] ∧ full.store.candidates = [] := by
  refine ⟨?_, by decide +kernel⟩
  simp only [Store.freePages, List.filter_eq_nil_iff]
  intro p hp
  simp [hp]

theorem witness_FailedPageIsReplaced_second :
    ∀ tag ∈ [Tag.waveform, .sag, .interval, .note],
      let s := failsAgain tag
      let e := s.store.dir.headD (oneRecord false [] 0)
      s.mode = .running ∧ s.sup.restartDue = none ∧ s.store.writes = .page 7 1 [1, 2] .more :: [.page 7 0 [2] .seal] ∧
        s.store.entryOf 7 = some e ∧ e.img.tag = tag ∧ e.img.sealed = false ∧ e.img.pages[1]? = some 129 ∧
        s.store.retiring = none ∧ e.fails ≠ 0 ∧ (s.store.dir.map (·.index)).Nodup ∧ s.sup.sealing = none ∧
        s.store.used.Nodup ∧ (∀ p ∈ s.store.used, isDataPage p ∧ p ∉ s.store.bad) ∧ s.store.bad.Nodup := by decide +kernel

theorem witness_FailedPageIsReplaced :
    (let e := oneRecord false [128] 0
     let s := withRecord e [.page 7 0 [1, 2] .seal]
     s.mode = .running ∧ s.sup.restartDue = none ∧ s.sup.sealing = none ∧ s.store.entryOf 7 = some e ∧ e.img.sealed = false ∧
      e.img.pages[0]? = some 128 ∧ s.store.retiring = none) ∧
    (withRecord (oneRecord false [128] 0) [.sys (.bad false) true]).store.writes = .sys (.bad false) true :: [] ∧
    (let s := withRetiring .waveform
     let e := s.store.dir.headD (oneRecord false [] 0)
     s.mode = .running ∧ s.sup.opening = none ∧ s.sup.parkWait = false ∧ s.sup.sealing = none ∧ (∀ n ∈ s.ctr.list, n ≤ 65535) ∧
      s.store.retiring = some ⟨0, 1, 129, false, false⟩ ∧ (Retiring.mk 0 1 129 true false).second = true ∧ e ∈ s.store.dir ∧ e.index = 0 ∧ (s.store.dir.map (·.index)).Nodup ∧
      e.img.sealed = false ∧ e.img.pages[1]? = some 129 ∧ e.img.pages.Nodup ∧ 129 ∈ s.store.bad ∧
      (∀ w ∈ [StoreWrite.sys (.bad true) false], w.isSys = true) ∧ s.store.freePages.head? = some 130 ∧ e.img.tag = .waveform) ∧
    ([Tag.sag, .interval, .note].all fun tag => (withRetiring tag).store.dir.all fun e => e.img.tag == tag) = true := by
  decide +kernel

theorem witness_SystemAndHeaderWrites :
    let s := fun w => withRecord (oneRecord false [128] 0) [w]
    let k := withRecord { oneRecord false [128, 129] 1 with keep := some 1 } [.sys (.entry 0 (some 7)) false]
    (s (.header live.hdr false)).mode = .running ∧ (s (.header live.hdr false)).sup.restartDue = none ∧
      (s (.header live.hdr false)).sup.sealing = none ∧
      (s (.sys (.bad false) false)).store.writes = .sys (.bad false) false :: [] ∧
      (∀ e ∈ (s (.sys (.bad false) false)).store.dir, e.keep = none) ∧ (s (.sys (.bad false) false)).store.retiring = none ∧
      (s (.header live.hdr false)).store.writes = .header live.hdr false :: [] ∧
      (s (.sys (.ctl true) true)).store.writes = .sys (.ctl true) true :: [] ∧ (s (.sys (.ctl true) true)).store.retiring = none ∧
      (s (.header live.hdr true)).store.writes = .header live.hdr true :: [] ∧
      k.store.writes = .sys (.entry 0 (some 7)) false :: [] ∧ (k.store.dir.map (·.index)).Nodup ∧
      { oneRecord false [128, 129] 1 with keep := some 1 } ∈ k.store.dir := by decide

theorem witness_RecordReadIsAnswered :
    let s := fun shut => withRecord (oneRecord shut [128] 1) []
    (s true).takes rx5 ∧ (s true).store.entryOf 8 = none ∧ (s false).store.entryOf 7 = some (oneRecord false [128] 1) ∧
      (s true).store.entryOf 7 = some (oneRecord true [128] 1) ∧ 1024 * (oneRecord true [128] 1).img.pages.length ≤ 40 * 26 ∧
      40 * 25 < 1024 * (oneRecord true [128] 1).img.pages.length ∧
      (let e := { oneRecord true [128, 129] 1 with keep := some 1 }
       (withRecord e []).store.entryOf 7 = some e ∧ 1024 * (e.img.pages.take 1).length ≤ 40 * 26) := by
  unfold State.takes
  decide

theorem witness_NotesAreTakenOrIgnored :
    let entry := fun (site expired : Bool) => (⟨1, site, [], 0, none, expired, none, none⟩ : NoteEntry)
    let full := List.replicate 31 (entry false false) ++ entry false true :: []
    (live.takes rx5 ∧ note9.WellFormed ∧ live.hdr.state ≠ .idle ∧ note9.id ≠ 0 ∧ note9.kind = 2 ∧ { note9 with kind := 1 }.kind = 1 ∧
      live.knownNote note9.id.toNat = false ∧ live.notes.length < 32 ∧ State.reset.hdr.state = .idle ∧
      9 ∈ (withRecord (oneRecord false [128] 0) []).store.noteIds) ∧
    (32 ≤ full.length ∧ (full.filter (·.site)).length < 4 ∧ (entry false true).expired = true ∧
      (∀ x ∈ List.replicate 31 (entry false false), x.expired = false) ∧ { live with notes := full }.knownNote 9 = false) ∧
    (32 ≤ (entry true false :: List.replicate 31 (entry false false)).length ∧
      (∀ x ∈ entry true false :: List.replicate 31 (entry false false), x.expired = false) ∧
      ∀ x ∈ [entry true false], x.site = true) ∧
    (4 ≤ ((List.replicate 4 (entry true false)).filter (·.site)).length ∧ (entry true false).site = true) := by
  unfold State.takes
  decide +kernel

/-- A CORRECTION frame of a target that the table holds, with its record granted and refused. -/
theorem witness_CorrectionChangesItsTarget_frame :
    let f : NoteFrame := ⟨10, 3, 5, 9, [65]⟩
    let s := { live with notes := [⟨9, false, [], 0, none, false, none, none⟩] }
    let full := { s with store := { s.store with last := 4294967295 } }
    s.takes rx5 ∧ f.WellFormed ∧ s.hdr.state ≠ .idle ∧ f.id ≠ 0 ∧ f.kind = 3 ∧ s.knownNote f.id.toNat = false ∧
      (∀ n ∈ s.ctr.list, n ≤ 65535) ∧ (s.create ⟨.note, none, some f.id.toNat, 1⟩).2 = some 1 ∧
      (full.create ⟨.note, none, some f.id.toNat, 1⟩).2 = none ∧ (∃ e ∈ s.notes, e.id = f.corrects.toNat) ∧
      ∀ e ∈ s.notes, e.id ≠ { f with corrects := 8 }.corrects.toNat := by
  unfold State.takes
  decide +kernel

theorem witness_CorrectionChangesItsTarget :
    let n : Note := ⟨10, 3, 0, 9, 60000, []⟩
    let e : NoteEntry := ⟨9, false, [], 0, none, false, none, none⟩
    n.kind = 3 ∧ [e, { e with id := 11, site := true }][0]? = some e ∧ e.id = n.corrects ∧
      [e, { e with id := 11, site := true }][1]? = some { e with id := 11, site := true } ∧ 11 ≠ n.corrects ∧
      { n with span := 1 }.span ≠ 0 := by decide

theorem witness_ObservationExpires :
    let e : NoteEntry := ⟨9, false, [], 0, some 60000, false, none, none⟩
    let s := { live with notes := [e] }
    s.surveyRuns = true ∧ s.notes.find? (fun n => n.id == (9 : BitVec 16).toNat && !n.site && !n.expired) = some e ∧
      e.spanEnd = some 60000 := by decide

theorem witness_PrintRequestIsAnswered :
    let bare := { live with straps := { live.straps with printer := false } }
    let far := withRoster bare
    State.reset.takes rx5 ∧ State.reset.hdr.state = .idle ∧ 4 < (5 : BitVec 8).toNat ∧
      2 ≤ { live with rep := ⟨[job5 .asked, { job5 .asked with entry := 1, number := 5 }], 5⟩ }.rep.jobs.length ∧
      bare.takes rx5 ∧ (bare.heard rx5).printerChoice = none ∧ far.takes rx5 ∧ far.rep.jobs = [] ∧ far.rep.lastJob ≤ 255 ∧
      ReportKind.ofCode (1 : BitVec 8).toNat = some .sagList ∧ (far.heard rx5).printerChoice = some (.station 5) := by
  unfold State.takes
  decide

/-- The own printer with a full queue, with its service busy, and free, and a request beside another job. -/
theorem witness_PrintRequestIsAnswered_own :
    let far := withRoster { withJob (job5 .queued) with straps := { live.straps with printer := false } }
    let free := { live with prn := { live.prn with state := .idle, trailer := none } }
    (live.takes rx5 ∧ (live.heard rx5).printerChoice = some .own ∧ live.hdr.state ≠ .idle ∧ live.rep.jobs = [] ∧
      live.rep.lastJob ≤ 255 ∧ live.prn.entryOf .own (live.rep.lastJob % 255 + 1) = none ∧ live.prn.queue.length < 8 ∧
      live.prn.state ≠ .idle) ∧
    (let full := withPrinter .printing (List.replicate 8 (ask5 false)) []
     full.takes rx5 ∧ (full.heard rx5).printerChoice = some .own ∧ full.prn.entryOf .own (full.rep.lastJob % 255 + 1) = none ∧
      8 ≤ full.prn.queue.length) ∧
    (free.takes rx5 ∧ (free.heard rx5).printerChoice = some .own ∧ free.prn.state = .idle ∧ free.pins.paperOut = false ∧
      free.prn.queue = [] ∧ free.prn.buffer = [] ∧ free.notes = [] ∧ ReportKind.ofCode (4 : BitVec 8).toNat = some .surveySheet) ∧
    (far.takes rx5 ∧ far.hdr.state ≠ .idle ∧ far.rep.jobs = [job5 .queued] ∧ (job5 .queued).entry < 2 ∧
      (far.heard rx5).printerChoice = some (.station 5)) := by
  unfold State.takes
  decide

/-- The own job 4 in holding or SENDING, with its block 1 current, at the own printer. -/
def withOwnJob (paperOut : Bool) (waiting : Option (Nat × List Byte)) (buffer : List (List Byte)) : State :=
  let s := withPrinter .printing [⟨.own, 4, .surveySheet, false, 0, true⟩] buffer
  let j := { newJob 0 4 .surveySheet 0 false .own [] 0 with
             state := .sending, current := some ⟨1, some [], 1⟩, nextSeq := 2, holdTimer := some 80000000 }
  { s with rep := ⟨[j], 4⟩, pins := { s.pins with paperOut := paperOut }, prn := { s.prn with waiting := waiting } }

theorem witness_own_job :
    let held := withOwnJob true none []
    let sends := withOwnJob false (some (1, [])) [[], []]
    let j := { newJob 0 4 .surveySheet 0 false .own [] 0 with
               state := .sending, current := some ⟨1, some [], 1⟩, nextSeq := 2, holdTimer := some 80000000 }
    (held.mode = .running ∧ held.jobAt (0 : Fin 2).val = some j ∧ j.printer = .own ∧ held.jobOf .own j.number = some j ∧
      held.straps.printer = true ∧ held.pins.paperOut = true ∧ held.prn.printing = some ⟨.own, 4, .surveySheet, false, 0, true⟩ ∧
      1 = held.prn.lastTaken + 1 ∧ held.prn.waiting = none) ∧
    (sends.serviceWorks = true ∧ sends.pins.ready = true ∧ sends.pins.paperOut = false ∧ sends.prn.buffer = [] :: [[]] ∧
      sends.prn.printing = some ⟨.own, 4, .surveySheet, false, 0, true⟩ ∧ sends.prn.waiting = some (1, []) ∧
      sends.jobOf .own 4 = some j ∧ j.state = .sending ∧ j.current = some ⟨1, some [], 1⟩ ∧ j.nextSeq = 1 + 1 ∧
      (sends.nextLine j 12 j.cursor).isSome = true) := by decide

theorem witness_AsksAreRepeated :
    (withJob (job5 .asked)).mode = .running ∧ (withJob (job5 .asked)).jobAt (0 : Fin 2).val = some (job5 .asked) ∧
      (job5 .asked).printer = .station 5 ∧ (job5 .asked).answerTimer = some 40000000 ∧ (job5 .asked).askSends < 3 ∧
      3 ≤ { job5 .asked with askSends := 3 }.askSends ∧
      { job5 .queued with refreshTimer := some 400000000 }.refreshTimer = some 400000000 := by decide

theorem witness_BlocksAreRepeatedThenAbandoned :
    let b : CurBlock := ⟨8, none, 2⟩
    let j := { job5 .sending with current := some b, heldSince := some 0, holdTimer := some 80000000 }
    (withJob j).mode = .running ∧ (withJob j).jobAt (0 : Fin 2).val = some j ∧ j.state = .sending ∧ j.printer = .station 5 ∧
      j.current = some b ∧ j.answerTimer = some 40000000 ∧ b.sends < 3 ∧ 3 ≤ { b with sends := 3 }.sends ∧
      j.holdTimer = some 80000000 ∧ j.heldSince = some 0 := by decide

theorem witness_AnswersOfThePrinter :
    let j := { job5 .sending with current := some ⟨8, none, 1⟩ }
    (withJob (job5 .asked)).takes rx5 ∧
      (withJob (job5 .asked)).jobOf (.station rx5.sender.toNat) (4 : BitVec 8).toNat = some (job5 .asked) ∧
      (job5 .asked).state = .asked ∧ (job5 .asked).nextSeq = 1 ∧ (job5 .asked).cursor = ⟨0, 0, 0, 0⟩ ∧
      (withJob j).takes rx5 ∧ (withJob j).jobOf (.station rx5.sender.toNat) (4 : BitVec 8).toNat = some j ∧ j.state = .sending ∧
      j.current = some ⟨8, none, 1⟩ := by
  unfold State.takes
  decide

theorem witness_TakenGoesOnOrEndsTheJob :
    let b : CurBlock := ⟨8, none, 1⟩
    let j := { job5 .sending with current := some b, records := [812, 820] }
    (withJob j).takes rx5 ∧ (withJob j).jobOf (.station rx5.sender.toNat) (4 : BitVec 8).toNat = some j ∧ j.current = some b ∧
      b.seq = (8 : BitVec 16).toNat ∧ b.seq ≠ (7 : BitVec 16).toNat ∧ j.kind = .sagList ∧ j.records.getLast? = some 820 ∧
      (withJob j).hdr.watermark < 820 ∧ 820 ≤ { live.hdr with watermark := 820 }.watermark ∧ { b with line := some [] }.line ≠ none := by
  unfold State.takes
  decide

theorem witness_UnknownJobFrames :
    live.takes rx5 ∧ live.jobOf (.station rx5.sender.toNat) (4 : BitVec 8).toNat = none ∧
      live.prn.entryOf (.station rx5.sender.toNat) (4 : BitVec 8).toNat = none := by
  unfold State.takes
  decide

theorem witness_DropEndsAtBothSides :
    (withJob (job5 .queued)).takes rx5 ∧
      (withJob (job5 .queued)).jobOf (.station rx5.sender.toNat) (4 : BitVec 8).toNat = some (job5 .queued) ∧
      (withJob (job5 .queued)).prn.entryOf (.station rx5.sender.toNat) (4 : BitVec 8).toNat = none ∧
      (withPrinter .idle [ask5 false] []).takes rx5 ∧ (withPrinter .idle [ask5 false] []).serviceWorks = true ∧
      (withPrinter .idle [ask5 false] []).jobOf (.station rx5.sender.toNat) (4 : BitVec 8).toNat = none ∧
      (withPrinter .idle [ask5 false] []).prn.entryOf (.station rx5.sender.toNat) (4 : BitVec 8).toNat = some (ask5 false) ∧
      (ask5 false).printing = false ∧ (ask5 true).printing = true ∧
      (withPrinter .printing [ask5 true] [[]]).prn.entryOf (.station rx5.sender.toNat) (4 : BitVec 8).toNat = some (ask5 true) := by
  unfold State.takes
  decide

theorem witness_PrintAskIsAnswered :
    let s := fun q => withPrinter .printing q []
    let f : PrintAskFrame := ⟨4, 1, 0⟩
    (s [ask5 true]).takes rx5 ∧ (s [ask5 true]).serviceWorks = true ∧ ReportKind.ofCode f.kind.toNat = some .sagList ∧
      (s [ask5 true]).prn.entryOf (.station rx5.sender.toNat) f.job.toNat = some (ask5 true) ∧
      (ask5 true).kind = .sagList ∧ (ask5 true).urgent = (f.cls == 1) ∧ (ask5 true).urgent ≠ ((1 : BitVec 8) == 1) ∧
      (s (List.replicate 8 { ask5 false with job := 9 })).prn.entryOf (.station rx5.sender.toNat) f.job.toNat = none ∧
      8 ≤ (s (List.replicate 8 { ask5 false with job := 9 })).prn.queue.length ∧
      (s (List.replicate 7 { ask5 false with job := 9 })).prn.queue.length < 8 ∧ (s []).prn.state ≠ .idle := by
  unfold State.takes
  decide

/-- An entry of the other class that waits, with the service busy, and the choice of an IDLE service with paper. -/
theorem witness_PrintAskIsAnswered_new :
    let f : PrintAskFrame := ⟨4, 1, 1⟩
    let s := withPrinter .printing [ask5 false, { ask5 true with job := 9 }] []
    let i := withPrinter .idle [] []
    (s.takes rx5 ∧ s.serviceWorks = true ∧ s.prn.entryOf (.station rx5.sender.toNat) f.job.toNat = some (ask5 false) ∧
      (ask5 false).printing = false ∧ ¬((ask5 false).kind = .sagList ∧ (ask5 false).urgent = (f.cls == 1)) ∧ s.prn.state ≠ .idle ∧
      (s.prn.queue.filter fun x => !(x.origin == .station rx5.sender.toNat && x.job == f.job.toNat)).length < 8) ∧
    (i.takes rx5 ∧ i.serviceWorks = true ∧ i.prn.entryOf (.station rx5.sender.toNat) f.job.toNat = none ∧ i.prn.state = .idle ∧
      i.pins.paperOut = false ∧ i.prn.queue = []) := by
  unfold State.takes
  decide

theorem witness_ChoiceFollowsItsOrder :
    let p := { freshPrinter true with queue := [ask5 false, { ask5 false with origin := .station 8 }],
                                      grants := [.station 5, .station 5, .station 5] }
    p.choice 0 = some { ask5 false with origin := .station 8 } ∧ p.grants = [.station 5, .station 5, .station 5] ∧
      (∃ x ∈ p.queue, x.printing = false ∧ x.origin ≠ .station 5) ∧
      { p with grants := [] }.choice 0 = some (ask5 false) ∧
      { p with queue := [ask5 true] }.choice 0 = none ∧ { p with queue := [ask5 true] }.queue ≠ [] := by decide

theorem witness_PrinterInputsActOnTheService :
    let s := withPrinter .idle [ask5 false] []
    s.prn.waiting = none ∧ s.serviceWorks = true ∧ s.prn.state = .idle ∧ s.prn.choice s.clock.now = some (ask5 false) ∧
      (ask5 false).origin = .station 5 ∧ (withPrinter .idle [] []).prn.choice 0 = none := by decide

theorem witness_BlocksAreTakenInOrder :
    let s := withPrinter .printing [ask5 true] [[]]
    let f : PrintBlockFrame := ⟨4, 1, 0, []⟩
    s.takes rx5 ∧ f.WellFormed ∧ s.serviceWorks = true ∧ s.prn.printing = some (ask5 true) ∧
      (ask5 true).origin = .station rx5.sender.toNat ∧ (ask5 true).job = f.job.toNat ∧ f.seq.toNat = s.prn.lastTaken + 1 ∧
      s.pins.paperOut = false ∧ s.prn.waiting = none ∧ s.prn.buffer.length < 2 ∧
      2 ≤ (withPrinter .printing [ask5 true] [[], []]).prn.buffer.length := by
  unfold State.takes
  decide

theorem witness_JobsEndWithTheirTrailer :
    let s := withPrinter .printing [ask5 true] [[], []]
    s.takes rx5 ∧ (PrintBlockFrame.mk 4 1 1 []).WellFormed ∧ s.serviceWorks = true ∧ s.prn.printing = some (ask5 true) ∧
      2 ≤ s.prn.buffer.length ∧ (withPrinter .printing [ask5 true] [[]]).prn.buffer.length < 2 ∧
      (1 : BitVec 16).toNat = s.prn.lastTaken + 1 ∧ s.pins.paperOut = false ∧ (2 : BitVec 16).toNat ≠ s.prn.lastTaken ∧
      (2 : BitVec 16).toNat ≠ s.prn.lastTaken + 1 ∧
      (∀ e, s.prn.printing = some e → ¬(e.origin = .station rx5.sender.toNat ∧ e.job = (5 : BitVec 8).toNat)) ∧
      { live with straps := { live.straps with printer := false } }.takes rx5 ∧ 1 < (2 : BitVec 8).toNat := by
  unfold State.takes
  decide

theorem witness_PrinterTimers :
    let s := withPrinter .printing [ask5 true] [[], []]
    s.mode = .running ∧ s.prn.printing = some (ask5 true) ∧ (ask5 true).origin = .station 5 ∧ s.prn.goTimer = some 40000000 ∧
      s.prn.inactivity = some 200000000 ∧ 2 ≤ s.prn.buffer.length ∧
      (withPrinter .printing [ask5 true] []).prn.buffer.length < 2 := by decide

theorem witness_LinesLeaveTheBuffer :
    let p := withPrinter .printing [ask5 true] [[], []]
    let s := { p with prn := { p.prn with waiting := some (3, []) } }
    let f := withPrinter .finishing [] [[]]
    s.serviceWorks = true ∧ s.pins.ready = true ∧ s.pins.paperOut = false ∧ s.prn.buffer = [] :: [[]] ∧ s.prn.state = .printing ∧
      s.prn.printing = some (ask5 true) ∧ s.prn.waiting = some (3, []) ∧ f.serviceWorks = true ∧ f.prn.buffer = [] :: [] ∧
      f.prn.state = .finishing ∧ f.prn.waiting = none ∧ f.prn.trailer = none ∧ f.prn.queue = [] ∧
      { p with prn := { p.prn with trailer := some [] } }.prn.trailer = some [] ∧ p.prn.waiting = none := by decide

theorem witness_LowestPriorityStarts :
    let q := [waits (.printAsk 4 1 0), waits (.go 4), waits (.taken 4 1)]
    live.mode = .running ∧ (∀ g ∈ q, g.sending = false) ∧ q = [waits (.printAsk 4 1 0)] ++ waits (.go 4) :: [waits (.taken 4 1)] ∧
      (∀ g ∈ [waits (.printAsk 4 1 0)], (Payload.go 4).priority < g.payload.priority) ∧
      ∀ g ∈ [waits (.taken 4 1)], (Payload.go 4).priority ≤ g.payload.priority := by decide

theorem witness_AttemptsEndAndTriggersGoStale :
    let f := { waits (.go 4) with sending := true }
    let t := waits (.trigger 36 8 2 0)
    (∀ g ∈ [waits (.go 4)] ++ [waits (.go 4)], g.sending = false) ∧ f.sending = true ∧ f.noRetry = false ∧ f.attempts < 7 ∧
      f.payload.isTrigger = false ∧ 7 ≤ { f with attempts := 7 }.attempts ∧ live.mode = .running ∧
      (∀ g ∈ [waits (.go 4)], g.payload.isTrigger = false) ∧ t.payload.isTrigger = true ∧ t.noRetry = false ∧ t.sending = false ∧
      { t with sending := true }.sending = true ∧ { t with noRetry := true }.noRetry = true ∧
      (waits (.beacon none)).payload.isBeacon = true ∧ f.payload.isBeacon = false ∧
      (waits (.beacon none)).payload.isTrigger = false := by
  decide

theorem witness_FramesThatNoBlockTakes :
    { live with mode := .parked }.mode ≠ .running ∧ { live.sup with opening := some ⟨5, 37, defaultParams, false, 0⟩ }.opening ≠ none ∧
    (frameOf 2 (Instr.note rx5 note9)).isSome = true ∧
    live.takes rx5 ∧ live.mode = .running ∧ live.sup.opening = none ∧ live.ownNumber = some 1 ∧ (Rx.mk 1 15).sender.toNat = 1 ∧
      (Rx.mk 15 1).sender = 15 ∧
      (let c := Instr.note ⟨1, 15⟩ note9
       (frameOf 2 c).map (·.sender) = some 1 ∧ c.wellFormed = true ∧ live.ownNumber = some (1 : BitVec 4).toNat) ∧
      (let c := Instr.taken ⟨5, 3⟩ 4 1
       (frameOf 1 c).map (·.sender) = some 5 ∧ (frameOf 1 c).map (·.addressee) = some 3 ∧ c.wellFormed = true ∧
        live.ownNumber ≠ some (5 : BitVec 4).toNat ∧ live.ownNumber ≠ some (3 : BitVec 4).toNat) := by
  unfold State.takes
  decide

theorem witness_BeaconsEndTheRejoining :
    let f : BeaconFrame := ⟨36, 1, 0, 3999999999, 1, 49992, 1⟩
    (inState .rejoining).takes rx5 ∧ (inState .rejoining).hdr.state = .rejoining ∧
      f.number.toNat = (inState .rejoining).hdr.number ∧ f.state = 1 ∧ f.time.toNat < 4000000000 ∧ { f with state := 3 }.state = 3 ∧
      { f with number := 37 }.number.toNat ≠ (inState .rejoining).hdr.number ∧ 4000000000 ≤ { f with time := 4000000000 }.time.toNat ∧
      (inState .rejoining).sup.sealing = none ∧
      (let closing := { measuring with hdr := (inState .rejoining).hdr, sup := { measuring.sup with
        sealing := some ⟨[7, 8], .close [5]⟩ } }
       closing.takes rx5 ∧ closing.sup.sealing ≠ none) ∧
      live.takes rx5 ∧ live.hdr.state ≠ .rejoining ∧ live.inSurvey = true ∧ live.tb.state = .free := by
  unfold State.takes
  decide

theorem witness_BeaconsEverySecond : live.mode = .running ∧ live.line.beaconTimer = some 2000000 := by decide

theorem witness_RosterEntryExpires :
    (withRoster live).mode = .running ∧ (withRoster live).line.entryOf (5 : BitVec 4).toNat = some ⟨5, 0, some 0, some info⟩ ∧
      ((withRoster (withJob (job5 .queued))).rep.jobs.map (·.entry)).Nodup ∧ (∀ n ∈ live.ctr.list, n ≤ 65535) := by
  decide

theorem witness_StationQueryIsAnswered : live.takes rx5 ∧ { live.line with muted := true }.muted = true := by
  unfold State.takes
  decide

end Sys2Proof.Machine
end

section
/-!
PROOF. SURVEY_OPEN that is not accepted, and SURVEY_CLOSE that closes nothing (R5, R7).
-/

namespace Sys2Proof.Machine

/-! ## The commands as frames that survey control takes (R188) -/

/-- SURVEY_OPEN whose frame is taken: survey control acts in the state whose roster shows the frame. -/
theorem exec_surveyOpen_takes {rx : Rx} {f : SurveyOpenFrame} {s : State} (h : s.takes rx) (hf : f.WellFormed) :
    exec (.surveyOpen rx f) s = .next ((s.heard rx).surveyOpen rx.sender.toNat f) := by
  change execSurveyOpen rx f s = _
  rw [execSurveyOpen, if_pos hf, receive_takes h]
  rfl

/-- SURVEY_CLOSE whose frame is taken. -/
theorem exec_surveyClose_takes {rx : Rx} {s : State} (h : s.takes rx) (n : BitVec 16) :
    exec (.surveyClose rx n) s = .next ((s.heard rx).surveyClose rx.sender.toNat n.toNat) := by
  change execSurveyClose rx n s = _
  rw [execSurveyClose, receive_takes h]
  rfl

/-! ## The rows of R5 -/

theorem surveyOpen_number_zero (s : State) (sender : Nat) {f : SurveyOpenFrame} (h : f.number = 0) :
    s.surveyOpen sender f = s := by
  simp [State.surveyOpen, h]

theorem surveyOpen_closed_same {s : State} {f : SurveyOpenFrame} (hs : s.hdr.state = .closed) (h0 : f.number ≠ 0)
    (h : f.number.toNat = s.hdr.number) (sender : Nat) : s.surveyOpen sender f = s.answer 1 1 0 false sender := by
  have hn : f.number.toNat ≠ 0 := BitVec.toNat_ne_iff_ne.2 h0
  simp only [State.surveyOpen, if_neg hn, hs, if_pos h]

theorem surveyOpen_inSurvey {s : State} {f : SurveyOpenFrame} (hs : s.hdr.state = .recording ∨ s.hdr.state = .rejoining)
    (h0 : f.number ≠ 0) (sender : Nat) :
    s.surveyOpen sender f = if f.number.toNat = s.hdr.number then s else s.answer 1 2 0 false sender := by
  have hn : f.number.toNat ≠ 0 := BitVec.toNat_ne_iff_ne.2 h0
  rcases hs with hs | hs <;> simp only [State.surveyOpen, if_neg hn, hs]

/-! ## The rows of R7 that close nothing -/

theorem surveyClose_closed {s : State} {n : Nat} (hs : s.hdr.state = .closed) (h : n = s.hdr.number) (sender : Nat) :
    s.surveyClose sender n = s.answer 2 0 0 false sender := by
  simp [State.surveyClose, hs, h]

theorem surveyClose_other {s : State} {n : Nat} (h : n ≠ s.hdr.number) (sender : Nat) : s.surveyClose sender n = s :=
  if_pos h

theorem surveyClose_idle {s : State} (hs : s.hdr.state = .idle) (sender n : Nat) : s.surveyClose sender n = s := by
  simp [State.surveyClose, hs]

/-- Settles O16: each clause is a row of R5 or R7, read in the state that has heard the frame, whose header is the one before. -/
theorem surveyCommandsRefusedOrIgnored : Obligations.SurveyCommandsRefusedOrIgnored := by
  intro rx s ht
  refine ⟨fun f hf => ?_, fun n => ?_⟩
  · rw [exec_surveyOpen_takes ht hf]
    refine ⟨fun h0 => ?zero, fun h0 hs hn => ?used, fun h0 hs => ?running⟩
    case zero => rw [surveyOpen_number_zero _ _ h0]
    case used => rw [surveyOpen_closed_same (s := s.heard rx) hs h0 hn]
    case running => rw [surveyOpen_inSurvey (s := s.heard rx) hs h0]; rfl
  · rw [exec_surveyClose_takes ht]
    refine ⟨fun hs hn => ?closed, ?ignored⟩
    case closed => rw [surveyClose_closed (s := s.heard rx) hs hn]
    case ignored =>
      rintro (hn | hs)
      · rw [surveyClose_other (s := s.heard rx) hn]
      · rw [surveyClose_idle (s := s.heard rx) hs]

end Sys2Proof.Machine
end

section
/-!
PROOF. The states of the voltage channels at an evaluated boundary (R48, R50 to R52).
-/

namespace Sys2Proof.Machine

/-! ## The tables as one classification between three bounds -/

/-- The state of a level between the bounds `lo`, `mid` and `hi`. Each table of R50 to R52 is this one with bounds of its own. -/
def stateBetween (lo mid hi l : Nat) : ChState :=
  if l < lo then .interrupted else if l < mid then .sagged else if l ≤ hi then .normal else .swollen

/-- With its bounds in order, the classification is a table of four rows. -/
theorem stateBetween_rows {lo mid hi : Nat} (hlo : lo ≤ mid) (hmid : mid ≤ hi) (l : Nat) :
    (l < lo → stateBetween lo mid hi l = .interrupted) ∧ (lo ≤ l → l < mid → stateBetween lo mid hi l = .sagged) ∧
      (mid ≤ l → l ≤ hi → stateBetween lo mid hi l = .normal) ∧ (hi < l → stateBetween lo mid hi l = .swollen) := by
  unfold stateBetween
  refine ⟨fun h => if_pos h, fun h₁ h₂ => ?sagged, fun h₁ h₂ => ?normal, fun h => ?swollen⟩
  case sagged => rw [if_neg (by omega), if_pos h₂]
  case normal => rw [if_neg (by omega), if_neg (by omega), if_pos h₂]
  case swollen => rw [if_neg (by omega), if_neg (by omega), if_neg (by omega)]

theorem nextChState_normal (p : Params) (l : Nat) : nextChState p .normal l = stateBetween p.ti p.ts p.tw l := rfl

theorem nextChState_sagged (p : Params) (l : Nat) :
    nextChState p .sagged l = stateBetween p.ti (p.ts + p.h) p.tw l := rfl

theorem nextChState_interrupted (p : Params) (l : Nat) :
    nextChState p .interrupted l = stateBetween (p.ti + p.h) (p.ts + p.h) p.tw l := rfl

/-- A swell is left at Tw − H or below, where the table of R50 never answers SWOLLEN: R52 is that table with its upper bound
lowered by H, as long as the lower bounds stay below it. -/
theorem nextChState_swollen {p : Params} (hlo : p.ti ≤ p.ts) (hmid : p.ts ≤ p.tw - p.h) (l : Nat) :
    nextChState p .swollen l = stateBetween p.ti p.ts (p.tw - p.h) l := by
  obtain ⟨interrupted, sagged, normal, swollen⟩ := stateBetween_rows hlo (hmid.trans (Nat.sub_le p.tw p.h)) l
  obtain ⟨interrupted', sagged', normal', swollen'⟩ := stateBetween_rows hlo hmid l
  change (if p.tw - p.h < l then .swollen else stateBetween p.ti p.ts p.tw l) = _
  by_cases hhi : p.tw - p.h < l
  · rw [if_pos hhi, swollen' hhi]
  rw [if_neg hhi]
  rcases Nat.lt_or_ge l p.ti with hti | hti
  · rw [interrupted hti, interrupted' hti]
  rcases Nat.lt_or_ge l p.ts with hts | hts
  · rw [sagged hti hts, sagged' hti hts]
  · rw [normal hts (by omega), normal' hts (by omega)]

/-! ## The report and the monitor after it, channel by channel -/

theorem freshLevel_volts_normal {n : Nat} {v : Volt} (h : v ∈ (freshLevel n).volts) : v.st = .normal := by
  rw [List.eq_of_mem_replicate h]

/-- Each of the three voltage channels is reported from its own window and its own state (R54). -/
theorem report_volts_getElem? {l : Level} {i : Nat} {c : Chan} {v : Volt} (hi : i < 3) (hc : l.chans[i]? = some c)
    (hv : l.volts[i]? = some v) (p : Params) (t : Nat) : (l.report p t).volts[i]? = some (reportVolt p c v) := by
  have hc' : (l.chans.take 3)[i]? = some c := by rw [List.getElem?_take_of_lt hi, hc]
  exact List.getElem?_zipWith_eq_some.2 ⟨c, v, hc', hv, rfl⟩

/-- A voltage channel keeps the level and the state of its report (R41). -/
theorem evaluate_volts_getElem? {r : BoundaryReport} {i : Nat} {x : VoltReport} (h : r.volts[i]? = some x) (l : Level) :
    (l.evaluate r).volts[i]? = some ⟨some x.level, x.after⟩ := by
  simp [Level.evaluate, h]

/-- The level of a report is R48's, with no regard to its clipped flag (R49). -/
theorem reportVolt_level (p : Params) (c : Chan) (v : Volt) :
    (reportVolt p c v).level = min (rmsOf c.sumSq * 10000 / (64 * p.un)) 65535 := rfl

theorem reportVolt_after (p : Params) (c : Chan) (v : Volt) :
    (reportVolt p c v).after = nextChState p v.st (reportVolt p c v).level := rfl

/-- Settles O24: the channel's report carries its new level and state, and the state is read off the table of the state before,
whose bounds are in order under R3. -/
theorem channelStatesFollowTheTables : Obligations.ChannelStatesFollowTheTables := by
  refine ⟨fun n v hv => freshLevel_volts_normal hv, fun p l t i c v hti hts htw hi hc hv => ?_⟩
  have hreport := report_volts_getElem? hi hc hv p t
  refine ⟨_, hreport, evaluate_volts_getElem? hreport l, reportVolt_level p c v, ?normal, ?sagged, ?interrupted, ?swollen⟩ <;>
    intro hst <;> rw [reportVolt_after, hst]
  case normal =>
    rw [nextChState_normal]
    exact stateBetween_rows (by omega) (by omega) _
  case sagged =>
    rw [nextChState_sagged]
    exact stateBetween_rows (by omega) (by omega) _
  case interrupted =>
    rw [nextChState_interrupted]
    exact stateBetween_rows (by omega) (by omega) _
  case swollen =>
    rw [nextChState_swollen (by omega) (by omega)]
    exact stateBetween_rows (by omega) (by omega) _

end Sys2Proof.Machine
end

section
/-!
PROOF. Frames of the print exchange that name a job this station does not hold (R165).
-/

namespace Sys2Proof.Machine

/-! ## The frames as messages to the report engine (R188) -/

section
variable {s : State} {rx : Rx} (h : s.takes rx)
include h

theorem exec_queued_takes (n : BitVec 8) :
    exec (.queued rx n) s = .next ((s.heard rx).originTake (.station rx.sender.toNat) (.queued n.toNat)).run :=
  congrArg _ (receive_takes h none _)

theorem exec_refused_takes (n r : BitVec 8) :
    exec (.refused rx n r) s = .next ((s.heard rx).originTake (.station rx.sender.toNat) (.refused n.toNat r.toNat)).run :=
  congrArg _ (receive_takes h none _)

theorem exec_go_takes (n : BitVec 8) :
    exec (.go rx n) s = .next ((s.heard rx).originTake (.station rx.sender.toNat) (.go n.toNat)).run :=
  congrArg _ (receive_takes h none _)

theorem exec_taken_takes (n : BitVec 8) (k : BitVec 16) :
    exec (.taken rx n k) s = .next ((s.heard rx).originTake (.station rx.sender.toNat) (.taken n.toNat k.toNat)).run :=
  congrArg _ (receive_takes h none _)

theorem exec_held_takes (n : BitVec 8) (k : BitVec 16) :
    exec (.held rx n k) s = .next ((s.heard rx).originTake (.station rx.sender.toNat) (.held n.toNat k.toNat)).run :=
  congrArg _ (receive_takes h none _)

/-- A DROP goes to the report engine and then to the printer service. -/
theorem exec_drop_takes (n : BitVec 8) :
    exec (.drop rx n) s = .next (((s.heard rx).originTake (.station rx.sender.toNat) (.drop n.toNat)).andThen fun s =>
      s.serviceTake (.station rx.sender.toNat) (.drop n.toNat)).run :=
  congrArg _ (receive_takes h none _)

end

/-- An exchange that has made no message goes on from its state. -/
@[simp] theorem andThen_nil (s : State) (f : State → Exchange) : Exchange.andThen (s, []) f = f s := rfl

/-! ## The report engine on a number that names no job of the sender's (R165) -/

section
variable {s : State} {p : Party} {n : Nat} (h : s.jobOf p n = none)
include h

theorem originTake_queued_unknown : s.originTake p (.queued n) = (s, []) := by
  simp only [State.originTake, h]

theorem originTake_refused_unknown (r : Nat) : s.originTake p (.refused n r) = (s, []) := by
  simp only [State.originTake, h]

theorem originTake_go_unknown : s.originTake p (.go n) = s.unknownJob p n := by
  simp only [State.originTake, h]

theorem originTake_taken_unknown (k : Nat) : s.originTake p (.taken n k) = s.unknownJob p n := by
  simp only [State.originTake, h]

theorem originTake_held_unknown (k : Nat) : s.originTake p (.held n k) = s.unknownJob p n := by
  simp only [State.originTake, h]

theorem originTake_drop_unknown : s.originTake p (.drop n) = (s, []) := by
  simp only [State.originTake, h]

end

/-- The answer to an unknown job of another station is a DROP frame, and nothing is left on its way. -/
theorem run_unknownJob_station (s : State) (a n : Nat) : (s.unknownJob (.station a) n).run = s.send (.drop n) a := by
  rw [State.unknownJob, post_station, run_nil]

/-! ## The printer service on a DROP of no entry -/

theorem serviceTake_stopped {s : State} (h : s.serviceWorks = false) (origin : Party) (m : Payload) :
    s.serviceTake origin m = (s, []) := by
  simp [State.serviceTake, h]

theorem dropped_unknown {s : State} {origin : Party} {n : Nat} (h : s.prn.entryOf origin n = none) :
    s.dropped origin n = (s, []) := by
  simp only [State.dropped, h]

theorem serviceTake_drop_unknown {s : State} {origin : Party} {n : Nat} (h : s.prn.entryOf origin n = none) :
    s.serviceTake origin (.drop n) = (s, []) := by
  cases hw : s.serviceWorks with
  | false => exact serviceTake_stopped hw origin _
  | true =>
    calc s.serviceTake origin (.drop n) = s.dropped origin n := by simp [State.serviceTake, hw]
      _ = (s, []) := dropped_unknown h

/-! ## The table of R165 -/

/-- Settles O45: the state that has heard the frame holds no such job either, so that the report engine answers DROP or does
nothing; a DROP then also finds the printer service stopped or without the entry. -/
theorem unknownJobFrames : Obligations.UnknownJobFrames := by
  intro rx n r k s ht hnone
  have hjob : (s.heard rx).jobOf (.station rx.sender.toNat) n.toNat = none := hnone
  refine ⟨?go, ?taken, ?held, ?queued, ?refused, fun hservice => ?drop⟩
  case go => rw [exec_go_takes ht, originTake_go_unknown hjob, run_unknownJob_station]
  case taken => rw [exec_taken_takes ht, originTake_taken_unknown hjob, run_unknownJob_station]
  case held => rw [exec_held_takes ht, originTake_held_unknown hjob, run_unknownJob_station]
  case queued => rw [exec_queued_takes ht, originTake_queued_unknown hjob, run_nil]
  case refused => rw [exec_refused_takes ht, originTake_refused_unknown hjob, run_nil]
  case drop =>
    rw [exec_drop_takes ht, originTake_drop_unknown hjob, andThen_nil]
    rcases hservice with hstopped | hentry
    · rw [serviceTake_stopped (s := s.heard rx) hstopped, run_nil]
    · rw [serviceTake_drop_unknown (s := s.heard rx) hentry, run_nil]

end Sys2Proof.Machine
end

section
/-!
PROOF. STATION QUERY and the STATION REPORT of the present values (R195).
-/

namespace Sys2Proof.Machine

/-- STATION_QUERY whose frame is taken: the report is made in the state whose roster shows the frame (R188). -/
theorem exec_stationQuery_takes {s : State} {rx : Rx} (h : s.takes rx) :
    exec (.stationQuery rx) s = .next ((s.heard rx).send (s.heard rx).stationReport rx.sender.toNat) :=
  congrArg _ (receive_takes h none _)

/-- No value of the report is read from the roster. -/
@[simp] theorem stationReport_heard (s : State) (rx : Rx) : (s.heard rx).stationReport = s.stationReport := rfl

@[simp] theorem stationReport_priority (s : State) : s.stationReport.priority = 2 := rfl

/-- A flag byte of one flag has it in bit 0. -/
theorem flagByte_singleton (b : Bool) : flagByte [b] = if b = true then 1 else 0 := by
  cases b <;> rfl

theorem provisional_iff (s : State) : s.provisional = true ↔ s.hdr.state = .rejoining := beq_iff_eq

/-- TIME UNSURE stands in the report in REJOINING and in no other state. -/
theorem flagByte_provisional (s : State) : flagByte [s.provisional] = if s.hdr.state = .rejoining then 1 else 0 := by
  simp only [flagByte_singleton, provisional_iff]

/-- The report value by value: the flag of TIME UNSURE, the published frequency of R40, and the counters one by one. -/
theorem stationReport_eq (s : State) :
    s.stationReport = .stationReport s.hdr.state.code s.hdr.number s.clock.survey
      (if s.hdr.state = .rejoining then 1 else 0) s.tb.state.code
      (if s.tb.state = .locked then 40000000000 / s.tb.period else 0)
      [s.ctr.events, s.ctr.summariesLost, s.ctr.companionsOpened, s.ctr.companionsMissed, s.ctr.capturesTruncated,
       s.ctr.capturesNoWave, s.ctr.triggersStale, s.ctr.intervalsSealed, s.ctr.intervalsLost, s.ctr.blocksTimebase,
       s.ctr.blocksEvent, s.ctr.recordsReclaimed, s.ctr.badPages, s.ctr.notesExpiredEarly, s.ctr.jobsCompleted,
       s.ctr.jobsAbandoned, s.ctr.jobsRefused] := by
  rw [State.stationReport, flagByte_provisional, Timebase.published, Counters.list]

/-- What a MUTED station sends is discarded (R190). -/
theorem send_of_muted {s : State} (h : s.line.muted = true) (p : Payload) (a : Nat) : s.send p a = s := by
  rw [State.send, Line.handOver, if_pos h]

/-- Hearing a frame mutes no station and unmutes none. -/
@[simp] theorem heard_muted (s : State) (rx : Rx) : (s.heard rx).line.muted = s.line.muted := rfl

/-- Settles O60: the report made in the state that has heard the frame is the one of the state before, value by value, and a
MUTED station's sending leaves that state as it is. -/
theorem stationQueryIsAnswered : Obligations.StationQueryIsAnswered := by
  intro rx s ht report
  have hreport : s.stationReport = report := stationReport_eq s
  have hexec := exec_stationQuery_takes ht
  rw [stationReport_heard, hreport] at hexec
  refine ⟨hexec, ?priority, fun hmuted => ?muted⟩
  case priority => rw [← hreport, stationReport_priority]
  case muted =>
    have hheard : (s.heard rx).line.muted = true := by rw [heard_muted, hmuted]
    rw [hexec, send_of_muted hheard]

end Sys2Proof.Machine
end

section
/-!
PROOF. The laws of the store that every step keeps, and the operations of the store that keep them.
-/

namespace Sys2Proof.Machine

/-! ## Lists in order of a key -/

/-- Inserting into an ordered list adds the element, and nothing else. -/
theorem insertBy_perm {α : Type} (key : α → Nat) (a : α) (l : List α) : (insertBy key a l).Perm (a :: l) := by
  induction l with
  | nil => exact .rfl
  | cons b l ih =>
    rw [insertBy]
    split
    · exact .rfl
    · exact (ih.cons b).trans (.swap a b l)

@[simp] theorem mem_insertBy {α : Type} {key : α → Nat} {a b : α} {l : List α} : b ∈ insertBy key a l ↔ b = a ∨ b ∈ l := by
  rw [(insertBy_perm key a l).mem_iff, List.mem_cons]

/-- Sorting moves elements and changes none. -/
theorem sortBy_perm {α : Type} (key : α → Nat) (l : List α) : (sortBy key l).Perm l := by
  induction l with
  | nil => exact .rfl
  | cons a l ih => exact (insertBy_perm key a _).trans (ih.cons a)

@[simp] theorem mem_sortBy {α : Type} {key : α → Nat} {a : α} {l : List α} : a ∈ sortBy key l ↔ a ∈ l := (sortBy_perm key l).mem_iff

/-! ## The laws of a store -/

/-- The law of the directory on the store alone. -/
def Store.directoryOk (st : Store) : Prop :=
  (st.dir.map (·.index)).Nodup ∧ (∀ e ∈ st.dir, e.index < 1024) ∧ st.used.Nodup ∧ (∀ p ∈ st.used, isDataPage p) ∧
    (∀ x ∈ st.nv.sys, ∀ d, x.2.content = .entry d → d.pages.Nodup ∧ ∀ p ∈ d.pages, isDataPage p) ∧
    ∀ e ∈ st.dir, ∀ p ∈ e.img.pages, p ∈ st.bad → ∃ x, st.retiring = some x ∧ x.listed = false ∧ x.page = p ∧ x.entry = e.index

/-- The law of pins between a store and a job table (R131). -/
def Store.pinsOk (st : Store) (jobs : List Job) : Prop :=
  (st.dir.map (·.index)).Nodup ∧ (jobs.map (·.entry)).Nodup ∧ (∀ e ∈ st.dir, e.img.record ≤ st.last) ∧
    (∀ j ∈ jobs, ∀ r ∈ j.records, ∃ e ∈ st.dir, e.img.record = r ∧ e.img.sealed = true) ∧
    ∀ e ∈ st.dir, e.pins = (jobs.map fun j => j.records.count e.img.record).sum

theorem directoryOk_iff (s : State) : s.directoryOk ↔ s.store.directoryOk := Iff.rfl

theorem pinsOk_iff (s : State) : s.pinsOk ↔ (s.sup.opening ≠ none → s.rep.jobs = []) ∧ s.store.pinsOk s.rep.jobs := Iff.rfl

/-- A change of the store that keeps its laws, each from itself alone. -/
structure Store.Keeps (st st' : Store) : Prop where
  mem : Memory.wf st.nv.mem → Memory.wf st'.nv.mem
  dir : st.directoryOk → st'.directoryOk
  pins : ∀ jobs, st.pinsOk jobs → st'.pinsOk jobs

theorem Store.Keeps.refl (st : Store) : st.Keeps st := ⟨id, id, fun _ => id⟩

theorem Store.Keeps.trans {a b c : Store} (h : a.Keeps b) (k : b.Keeps c) : a.Keeps c :=
  ⟨k.mem ∘ h.mem, k.dir ∘ h.dir, fun jobs => k.pins jobs ∘ h.pins jobs⟩

/-- What the laws do not speak of may change: the writes that wait, the write counts and the draws. -/
theorem Store.Keeps.of_eq {st st' : Store} (hnv : st'.nv = st.nv) (hbad : st'.bad = st.bad) (hlast : st'.last = st.last)
    (hdir : st'.dir = st.dir) (hret : st'.retiring = st.retiring) : st.Keeps st' := by
  cases st; cases st'; cases hnv; cases hbad; cases hlast; cases hdir; cases hret
  exact ⟨id, id, fun _ => id⟩

theorem Store.push_keeps (st : Store) (w : StoreWrite) : st.Keeps (st.push w) := .of_eq rfl rfl rfl rfl rfl

theorem Store.writes_keeps (st : Store) (ws : List StoreWrite) : st.Keeps { st with writes := ws } := .of_eq rfl rfl rfl rfl rfl

theorem Store.writeEntry_keeps (st : Store) (i : Nat) : st.Keeps (st.writeEntry i) := st.push_keeps _

theorem Store.writeEntryOf_keeps (st : Store) (r : Nat) : st.Keeps (st.writeEntryOf r) := by
  unfold Store.writeEntryOf
  split
  · exact st.writeEntry_keeps _
  · exact .refl st

theorem Store.writeBad_keeps (st : Store) : st.Keeps st.writeBad := .of_eq rfl rfl rfl rfl rfl

theorem Store.writeCtl_keeps (st : Store) : st.Keeps st.writeCtl := .of_eq rfl rfl rfl rfl rfl

theorem Store.writeEmpty_keeps (st : Store) : st.Keeps st.writeEmpty := .of_eq rfl rfl rfl rfl rfl

/-! ## The data pages -/

/-- A change of the data pages that keeps their form. -/
theorem Store.mem_keeps (st : Store) {m : Memory} (h : Memory.wf st.nv.mem → Memory.wf m) :
    st.Keeps { st with nv := { st.nv with mem := m } } := ⟨h, id, fun _ => id⟩

theorem Store.storePage_keeps (st : Store) (r pos : Nat) (bs : List Byte) : st.Keeps (st.storePage r pos bs) := by
  unfold Store.storePage
  split
  · exact st.mem_keeps fun h => Memory.writePage_wf h ..
  · exact .refl st

/-! ## Entries that change in place -/

/-- An entry that stays what the laws call it: its number, its record and its pins, still SEALED where it was, and with no page
it did not have. -/
structure Entry.Narrows (e e' : Entry) : Prop where
  index : e'.index = e.index
  record : e'.img.record = e.img.record
  pins : e'.pins = e.pins
  sealed : e.img.sealed = true → e'.img.sealed = true
  pages : e'.img.pages.Sublist e.img.pages

theorem Entry.Narrows.refl (e : Entry) : e.Narrows e := ⟨rfl, rfl, rfl, id, .refl _⟩

/-- An entry of the same number with no page it did not have. -/
structure Entry.Shrinks (e e' : Entry) : Prop where
  index : e'.index = e.index
  pages : e'.img.pages.Sublist e.img.pages

theorem Entry.Narrows.shrinks {e e' : Entry} (h : e.Narrows e') : e.Shrinks e' := ⟨h.index, h.pages⟩

theorem used_map_sublist {g : Entry → Entry} (hg : ∀ e : Entry, e.Shrinks (g e)) (l : List Entry) :
    ((l.map g).flatMap fun e => e.img.pages).Sublist (l.flatMap fun e => e.img.pages) := by
  induction l with
  | nil => exact .refl _
  | cons e l ih => exact (hg e).pages.append ih

theorem map_index_of_shrinks {g : Entry → Entry} (hg : ∀ e : Entry, e.Shrinks (g e)) (l : List Entry) :
    (l.map g).map (·.index) = l.map (·.index) := by
  rw [List.map_map]
  exact List.map_congr_left fun e _ => (hg e).index

/-- The law of pins holds on as the entries narrow. -/
theorem Store.pinsOk_map {st : Store} {jobs : List Job} {g : Entry → Entry} (hg : ∀ e : Entry, e.Narrows (g e)) (h : st.pinsOk jobs) :
    { st with dir := st.dir.map g }.pinsOk jobs := by
  obtain ⟨hi, hj, hl, hs, hp⟩ := h
  refine ⟨by rwa [map_index_of_shrinks fun e => (hg e).shrinks], hj, ?last, ?sealed, ?pins⟩
  case last =>
    simp only [List.forall_mem_map]
    exact fun e he => (hg e).record ▸ hl e he
  case sealed =>
    intro j hjm r hr
    obtain ⟨e, he, rfl, hsl⟩ := hs j hjm r hr
    exact ⟨g e, List.mem_map_of_mem he, (hg e).record, (hg e).sealed hsl⟩
  case pins =>
    simp only [List.forall_mem_map]
    intro e he
    rw [(hg e).pins, (hg e).record]
    exact hp e he

/-- The law of the directory holds on as the entries shrink, with no page more on the BAD list. -/
theorem Store.directoryOk_map {st : Store} {g : Entry → Entry} (hg : ∀ e : Entry, e.Shrinks (g e)) (h : st.directoryOk) :
    { st with dir := st.dir.map g }.directoryOk := by
  obtain ⟨hi, hb, hu, hd, hn, hx⟩ := h
  have hsub := used_map_sublist hg st.dir
  refine ⟨by rwa [map_index_of_shrinks hg], ?bound, hu.sublist hsub, fun p hp => hd p (hsub.subset hp), hn, ?bad⟩
  case bound =>
    simp only [List.forall_mem_map]
    exact fun e he => (hg e).index ▸ hb e he
  case bad =>
    simp only [List.forall_mem_map]
    intro e he p hp hbad
    rw [(hg e).index]
    exact hx e he p ((hg e).pages.subset hp) hbad

theorem Store.map_keeps (st : Store) {g : Entry → Entry} (hg : ∀ e : Entry, e.Narrows (g e)) : st.Keeps { st with dir := st.dir.map g } :=
  ⟨id, Store.directoryOk_map fun e => (hg e).shrinks, fun _ => Store.pinsOk_map hg⟩

/-- A change of the entries of one kind narrows every entry when it narrows these. -/
theorem narrows_ite {c : Entry → Bool} {f : Entry → Entry} (hf : ∀ e : Entry, e.Narrows (f e)) (e : Entry) :
    e.Narrows (if c e then f e else e) := by
  split
  · exact hf e
  · exact .refl e

theorem Store.update_keeps (st : Store) (r : Nat) {f : Entry → Entry} (hf : ∀ e : Entry, e.Narrows (f e)) : st.Keeps (st.update r f) :=
  st.map_keeps (narrows_ite (c := fun e => e.img.record == r) hf)

theorem Store.updateAt_keeps (st : Store) (i : Nat) {f : Entry → Entry} (hf : ∀ e : Entry, e.Narrows (f e)) : st.Keeps (st.updateAt i f) :=
  st.map_keeps (narrows_ite (c := fun e => e.index == i) hf)

/-- What a write of an entry writes has no page that the entry has not. -/
theorem Entry.written_pages (e : Entry) : e.written.pages.Sublist e.img.pages := by
  unfold Entry.written
  split
  · exact List.take_sublist ..
  · exact .refl _

theorem Entry.written_record (e : Entry) : e.written.record = e.img.record := by
  unfold Entry.written
  split <;> rfl

theorem Entry.written_sealed (e : Entry) : e.written.sealed = e.img.sealed := by
  unfold Entry.written
  split <;> rfl

theorem Store.released_keeps (st : Store) (i : Nat) (r : Option Nat) : st.Keeps (st.released i r) :=
  st.map_keeps (narrows_ite (c := fun e => e.index == i && some e.img.record == r) fun e =>
    ⟨rfl, e.written_record, rfl, fun h => e.written_sealed.trans h, e.written_pages⟩)

theorem Store.release_keeps (st : Store) (r keep : Nat) : st.Keeps (st.release r keep) := by
  unfold Store.release
  split
  · split
    · refine .trans (st.update_keeps r ?_) (Store.writeEntryOf_keeps ..)
      exact fun e => ⟨rfl, rfl, rfl, id, List.take_sublist ..⟩
    · exact .refl st
  · exact .refl st

theorem Store.closing_keeps (st : Store) (r keep : Nat) (header : List Byte) : st.Keeps (st.closing r keep header).1 := by
  unfold Store.closing
  split
  · split
    · exact st.update_keeps r fun e => ⟨rfl, rfl, rfl, id, .refl _⟩
    · exact .refl st
  · exact .refl st

theorem Store.seal_keeps (st : Store) (r : Nat) : st.Keeps (st.seal r) := by
  refine .trans (st.update_keeps r ?_) (Store.writeEntryOf_keeps ..)
  exact fun e => ⟨rfl, rfl, rfl, fun _ => rfl, .refl _⟩

theorem Store.verify_keeps (st : Store) (r pos : Nat) : st.Keeps (st.verify r pos) := by
  have hf : ∀ e : Entry, e.Narrows { e with img := { e.img with verified := pos + 1 } } := fun e => ⟨rfl, rfl, rfl, id, .refl _⟩
  unfold Store.verify
  split
  · split
    · dsimp only
      split
      · exact (st.update_keeps r hf).trans (Store.writeEntryOf_keeps ..)
      · exact st.update_keeps r hf
    · exact .refl st
  · exact .refl st

/-! ## Entries that leave the directory -/

/-- The entry of a number may leave the directory: no job lists its record (R131). -/
def Store.removable (st : Store) (i : Nat) : Prop :=
  (st.dir.map (·.index)).Nodup → ∀ x ∈ st.dir, x.index = i → x.img.sealed = false ∨ x.pins = 0

/-- Of a directory whose entries have numbers of their own, two entries of one number are one. -/
theorem eq_of_index {l : List Entry} (h : (l.map (·.index)).Nodup) {a b : Entry} (ha : a ∈ l) (hb : b ∈ l) (hab : a.index = b.index) :
    a = b := List.inj_on_of_nodup_map h ha hb hab

theorem removable_of_mem {st : Store} {e : Entry} (he : e ∈ st.dir) (h : e.img.sealed = false ∨ e.pins = 0) :
    st.removable e.index := fun hn x hx hi => by
  rwa [eq_of_index hn hx he hi]

/-- A job lists no record whose pin count is 0. -/
theorem Store.pinsOk_unlisted {st : Store} {jobs : List Job} (h : st.pinsOk jobs) {e : Entry} (he : e ∈ st.dir) (h0 : e.pins = 0)
    {j : Job} (hj : j ∈ jobs) : e.img.record ∉ j.records := by
  obtain ⟨-, -, -, -, hp⟩ := h
  have hsum := (hp e he).symm.trans h0
  rw [List.sum_eq_zero_iff] at hsum
  exact List.count_eq_zero.1 (hsum _ (List.mem_map_of_mem hj))

theorem Store.filter_keeps (st : Store) (i : Nat) (h : st.removable i) :
    st.Keeps { st with dir := st.dir.filter fun x => x.index != i } := by
  have hsub : (st.dir.filter fun x => x.index != i).Sublist st.dir := List.filter_sublist
  refine ⟨id, ?_, fun jobs hk => ?_⟩
  · rintro ⟨hi, hb, hu, hd, hn, hx⟩
    have husub : ((st.dir.filter fun x => x.index != i).flatMap fun e => e.img.pages).Sublist (st.dir.flatMap fun e => e.img.pages) :=
      hsub.flatMap _
    exact ⟨hi.sublist (hsub.map _), fun e he => hb e (hsub.subset he), hu.sublist husub, fun p hp => hd p (husub.subset hp), hn,
      fun e he => hx e (hsub.subset he)⟩
  · obtain ⟨hi, hj, hl, hs, hp⟩ := hk
    refine ⟨hi.sublist (hsub.map _), hj, fun e he => hl e (hsub.subset he), fun j hjm r hr => ?_, fun e he => hp e (hsub.subset he)⟩
    obtain ⟨e, he, rfl, hsl⟩ := hs j hjm r hr
    refine ⟨e, List.mem_filter.2 ⟨he, ?_⟩, rfl, hsl⟩
    rw [bne_iff_ne]
    intro hei
    rcases h hi e he hei with hu | h0
    · simp [hu] at hsl
    · exact Store.pinsOk_unlisted ⟨hi, hj, hl, hs, hp⟩ he h0 hjm hr

theorem Store.remove_keeps {st : Store} {e : Entry} (h : st.removable e.index) : st.Keeps (st.remove e) :=
  (st.filter_keeps _ h).trans (.of_eq rfl rfl rfl rfl rfl)

@[simp] theorem Store.remove_dir (st : Store) (e : Entry) : (st.remove e).dir = st.dir.filter fun x => x.index != e.index := rfl

theorem Store.removable_remove {st : Store} {i : Nat} (h : st.removable i) (hn : (st.dir.map (·.index)).Nodup) (e : Entry) :
    (st.remove e).removable i := fun _ x hx => h hn x (List.mem_of_mem_filter hx)

/-- Of a store two of whose entries have one number the laws say nothing. -/
theorem Store.Keeps.of_doubled {st st' : Store} (h : ¬(st.dir.map (·.index)).Nodup) (hnv : st'.nv = st.nv) : st.Keeps st' :=
  ⟨fun hm => hnv ▸ hm, fun hd => absurd hd.1 h, fun _ hp => absurd hp.1 h⟩

@[simp] theorem Store.reclaim_nv (st : Store) (es : List Entry) : (st.reclaim es).nv = st.nv := by
  unfold Store.reclaim
  induction es generalizing st with
  | nil => rfl
  | cons e es ih => exact ih _

theorem Store.reclaim_keeps {st : Store} {es : List Entry} (h : ∀ e ∈ es, st.removable e.index) : st.Keeps (st.reclaim es) := by
  by_cases hn : (st.dir.map (·.index)).Nodup
  · unfold Store.reclaim
    induction es generalizing st with
    | nil => exact .refl st
    | cons e es ih =>
      obtain ⟨he, hes⟩ := List.forall_mem_cons.1 h
      have hsub : ((st.remove e).dir.map (·.index)).Nodup := hn.sublist (List.filter_sublist.map _)
      exact (Store.remove_keeps he).trans (ih (fun x hx => Store.removable_remove (hes x hx) hn e) hsub)
  · exact .of_doubled hn (st.reclaim_nv es)

end Sys2Proof.Machine
end

section
/-!
PROOF. Creation, pins, failed pages and system writes keep the laws of the store.
-/

namespace Sys2Proof.Machine

/-! ## FREE pages and empty entries (R121, R122) -/

theorem mem_dataPageList {p : Nat} : p ∈ dataPageList ↔ isDataPage p := by
  simp only [dataPageList, List.mem_map, List.mem_range, isDataPage, Config.firstDataPage, Config.dataPages]
  constructor
  · rintro ⟨i, hi, rfl⟩
    omega
  · rintro ⟨h1, h2⟩
    exact ⟨p - 128, by omega, by omega⟩

theorem dataPageList_nodup : dataPageList.Nodup := by
  unfold dataPageList
  exact List.nodup_range.map fun a b h => by simpa using h

theorem Store.mem_freePages {st : Store} {p : Nat} : p ∈ st.freePages ↔ isDataPage p ∧ p ∉ st.bad ∧ p ∉ st.used := by
  simp [Store.freePages, mem_dataPageList]

theorem Store.freePages_nodup (st : Store) : st.freePages.Nodup := by
  unfold Store.freePages
  exact dataPageList_nodup.filter _

theorem Store.emptyEntry_some {st : Store} {i : Nat} (h : st.emptyEntry = some i) : i < 1024 ∧ ∀ e ∈ st.dir, e.index ≠ i := by
  have hm := List.mem_of_find?_eq_some h
  have hp := List.find?_some h
  simp only [List.mem_range, Config.dirEntries] at hm
  exact ⟨hm, by simpa using hp⟩

theorem Store.mem_used {st : Store} {p : Nat} : p ∈ st.used ↔ ∃ e ∈ st.dir, p ∈ e.img.pages := List.mem_flatMap

/-! ## Candidates (R128) -/

theorem DirImage.reclaimClass_mem (d : DirImage) : d.reclaimClass ∈ [1, 2, 3, 4, 5] := by
  unfold DirImage.reclaimClass
  repeat' split
  all_goals decide

theorem Store.mem_candidates {st : Store} {e : Entry} : e ∈ st.candidates ↔ e ∈ st.dir ∧ e.img.sealed = true ∧ e.pins = 0 := by
  have hclass := e.img.reclaimClass_mem
  simp only [Store.candidates, List.mem_flatMap, List.mem_filter, mem_sortBy, beq_iff_eq, Entry.reclaimable, Bool.and_eq_true]
  exact ⟨fun ⟨c, _, h, _⟩ => h, fun h => ⟨_, hclass, h, rfl⟩⟩

/-- The records chosen stand at the head of the candidates. -/
theorem chooseReclaim_prefix {need free : Nat} {ok : Bool} {cands es : List Entry} (h : chooseReclaim need free ok cands = some es) :
    es <+: cands := by
  induction cands generalizing free ok es with
  | nil =>
    rw [chooseReclaim] at h
    split at h <;> simp_all
  | cons e rest ih =>
    rw [chooseReclaim] at h
    split at h
    · cases h
      exact List.nil_prefix
    · obtain ⟨es', hes', rfl⟩ := Option.map_eq_some_iff.1 h
      exact List.cons_prefix_cons.2 ⟨rfl, ih hes'⟩

/-- The records that make room are SEALED records without a pin (R123, R127, R128). -/
theorem Store.makeRoom_candidates {st : Store} {quota : Nat} {req : CreateRequest} {es : List Entry}
    (h : st.makeRoom quota req = some es) : ∀ e ∈ es, e ∈ st.candidates := by
  simp only [Store.makeRoom] at h
  split at h
  · cases h
  · split at h
    · obtain ⟨e, he, rfl⟩ := Option.map_eq_some_iff.1 h
      have hm := mem_sortBy.1 (List.mem_of_head? he)
      simp only [List.mem_filter, Entry.reclaimable, Bool.and_eq_true, beq_iff_eq] at hm
      obtain ⟨⟨hd, -⟩, hs, hp⟩ := hm
      simpa [Store.mem_candidates] using ⟨hd, hs, hp⟩
    · exact fun e he => (chooseReclaim_prefix h).subset he

theorem Store.reclaim_candidates_keeps {st : Store} {es : List Entry} (h : ∀ e ∈ es, e ∈ st.candidates) :
    st.Keeps (st.reclaim es) :=
  Store.reclaim_keeps fun e he =>
    have hc := Store.mem_candidates.1 (h e he)
    removable_of_mem hc.1 (.inr hc.2.2)

/-! ## Creation (R126) -/

theorem used_insert_perm (e : Entry) (l : List Entry) :
    ((insertBy (·.index) e l).flatMap fun x => x.img.pages).Perm (e.img.pages ++ l.flatMap fun x => x.img.pages) :=
  (insertBy_perm _ e l).flatMap_right _

/-- A FILLING entry of a number of its own, with the next record number and FREE pages, joins the directory. -/
theorem Store.insert_keeps (st : Store) {e : Entry} (hi : e.index < 1024) (hnew : ∀ x ∈ st.dir, x.index ≠ e.index)
    (hr : e.img.record = st.last + 1) (hp : e.pins = 0) (hn : e.img.pages.Nodup) (hf : ∀ p ∈ e.img.pages, p ∈ st.freePages) :
    st.Keeps { st with last := st.last + 1, dir := insertBy (·.index) e st.dir } := by
  have hidx : ((insertBy (·.index) e st.dir).map (·.index)).Perm (e.index :: st.dir.map (·.index)) :=
    (insertBy_perm _ e st.dir).map _
  have hfresh : e.index ∉ st.dir.map (·.index) := fun h => by
    obtain ⟨x, hx, hxe⟩ := List.mem_map.1 h
    exact hnew x hx hxe
  have hfree : ∀ p ∈ e.img.pages, isDataPage p ∧ p ∉ st.bad ∧ p ∉ st.used := fun p h => Store.mem_freePages.1 (hf p h)
  refine ⟨id, ?_, fun jobs hk => ?_⟩
  · rintro ⟨hx, hb, hu, hd, hsys, hbad⟩
    refine ⟨hidx.nodup_iff.2 (List.nodup_cons.2 ⟨hfresh, hx⟩), ?bound, (used_insert_perm e st.dir).nodup_iff.2 ?used, ?data, hsys, ?bad⟩
    case bound =>
      simp only [mem_insertBy, forall_eq_or_imp]
      exact ⟨hi, hb⟩
    case used => exact hn.append hu fun p hpe hpu => (hfree p hpe).2.2 hpu
    case data =>
      intro p h
      rcases List.mem_append.1 ((used_insert_perm e st.dir).mem_iff.1 h) with h | h
      · exact (hfree p h).1
      · exact hd p h
    case bad =>
      simp only [mem_insertBy, forall_eq_or_imp]
      exact ⟨fun p h hb => absurd hb (hfree p h).2.1, hbad⟩
  · obtain ⟨hx, hj, hl, hs, hpin⟩ := hk
    refine ⟨hidx.nodup_iff.2 (List.nodup_cons.2 ⟨hfresh, hx⟩), hj, ?last, ?sealed, ?pins⟩
    case last =>
      simp only [mem_insertBy, forall_eq_or_imp]
      exact ⟨hr.le, fun x h => (hl x h).trans (Nat.le_succ _)⟩
    case sealed =>
      intro j hjm r h
      obtain ⟨x, hxm, hxr⟩ := hs j hjm r h
      exact ⟨x, mem_insertBy.2 (.inr hxm), hxr⟩
    case pins =>
      simp only [mem_insertBy, forall_eq_or_imp]
      refine ⟨?_, hpin⟩
      rw [hp, eq_comm, List.sum_eq_zero_iff]
      simp only [List.forall_mem_map, List.count_eq_zero]
      intro j hjm h
      obtain ⟨x, hxm, hxr, -⟩ := hs j hjm _ h
      have := hl x hxm
      omega

theorem Store.issue_keeps {st st' : Store} {survey r : Nat} {req : CreateRequest} (h : st.issue survey req = some (st', r)) :
    st.Keeps st' := by
  unfold Store.issue at h
  split at h
  · cases h
  · rename_i i hi
    obtain ⟨hlt, hnew⟩ := Store.emptyEntry_some hi
    dsimp only at h
    split at h
    · cases h
    · obtain ⟨rfl, rfl⟩ := Prod.mk.inj (Option.some.inj h)
      refine .trans (st.insert_keeps (e := newEntry i (st.last + 1) survey req (st.freePages.take req.pages)) hlt hnew rfl rfl
        (st.freePages_nodup.sublist (List.take_sublist ..)) fun p hp => List.mem_of_mem_take hp) ?_
      exact .of_eq rfl rfl rfl rfl rfl

theorem Store.create_keeps (st : Store) (survey quota : Nat) (req : CreateRequest) : st.Keeps (st.create survey quota req).1 := by
  unfold Store.create
  split
  · exact .refl st
  · rename_i es hes
    have hrec : st.Keeps (st.reclaim es) := Store.reclaim_candidates_keeps (Store.makeRoom_candidates hes)
    split
    · rename_i hiss
      exact hrec.trans (Store.issue_keeps hiss)
    · exact hrec

/-! ## Pins (R131) -/

/-- An entry with its pin count changed by the number of times that a list of records names its record. -/
def Entry.repin (g : Nat → Nat → Nat) (l : List Nat) (e : Entry) : Entry := { e with pins := g e.pins (l.count e.img.record) }

@[simp] theorem Entry.repin_add_nil : Entry.repin (· + ·) [] = id := rfl

@[simp] theorem Entry.repin_sub_nil : Entry.repin (· - ·) [] = id := rfl

theorem foldl_pin_eq (st : Store) (l : List Nat) :
    l.foldl Store.pin st = { st with dir := st.dir.map (Entry.repin (· + ·) l) } := by
  induction l generalizing st with
  | nil => simp
  | cons r l ih =>
    rw [List.foldl_cons, ih]
    simp only [Store.pin, Store.update, List.map_map]
    congr 1
    refine List.map_congr_left fun e _ => ?_
    by_cases h : e.img.record = r
    · simp [Entry.repin, h, Nat.add_right_comm, Nat.add_assoc]
    · simp [Entry.repin, h, Ne.symm h]

theorem foldl_unpin_eq (st : Store) (l : List Nat) :
    l.foldl Store.unpin st = { st with dir := st.dir.map (Entry.repin (· - ·) l) } := by
  induction l generalizing st with
  | nil => simp
  | cons r l ih =>
    rw [List.foldl_cons, ih]
    simp only [Store.unpin, Store.update, List.map_map]
    congr 1
    refine List.map_congr_left fun e _ => ?_
    by_cases h : e.img.record = r
    · simp [Entry.repin, h, Nat.sub_sub, Nat.add_comm 1]
    · simp [Entry.repin, h, Ne.symm h]

theorem Store.repin_directoryOk {st : Store} (g : Nat → Nat → Nat) (l : List Nat) (h : st.directoryOk) :
    { st with dir := st.dir.map (Entry.repin g l) }.directoryOk :=
  Store.directoryOk_map (fun _ => ⟨rfl, .refl _⟩) h

/-- The entry of a record, as it answers lookups. -/
theorem Store.entryOf_some {st : Store} {r : Nat} {e : Entry} (h : st.entryOf r = some e) : e ∈ st.dir ∧ e.img.record = r :=
  ⟨List.mem_of_find?_eq_some h, by simpa using List.find?_some h⟩

theorem Store.canPin_exists {st : Store} {r : Nat} (h : st.canPin r = true) :
    ∃ e ∈ st.dir, e.img.record = r ∧ e.img.sealed = true := by
  unfold Store.canPin at h
  split at h
  · rename_i e he
    obtain ⟨hm, hr⟩ := Store.entryOf_some he
    exact ⟨e, hm, hr, h⟩
  · cases h

/-- A job joins a table, with a pin for each record of its list. -/
theorem Store.pinsOk_join {st : Store} {jobs : List Job} {j : Job} (h : st.pinsOk jobs) (hnew : ∀ x ∈ jobs, x.entry ≠ j.entry)
    (hrec : ∀ r ∈ j.records, st.canPin r = true) (jobs' : List Job) (hperm : jobs'.Perm (j :: jobs)) :
    (j.records.foldl Store.pin st).pinsOk jobs' := by
  obtain ⟨hi, hj, hl, hs, hp⟩ := h
  have hjobs : (jobs'.map (·.entry)).Nodup := by
    rw [(hperm.map _).nodup_iff, List.map_cons, List.nodup_cons]
    refine ⟨fun hm => ?_, hj⟩
    obtain ⟨x, hx, hxe⟩ := List.mem_map.1 hm
    exact hnew x hx hxe
  rw [foldl_pin_eq]
  refine ⟨by rwa [List.map_map], hjobs, by simpa [Entry.repin] using hl, ?sealed, ?pins⟩
  case sealed =>
    intro x hx r hr
    have : ∃ e ∈ st.dir, e.img.record = r ∧ e.img.sealed = true := by
      rcases List.mem_cons.1 (hperm.mem_iff.1 hx) with rfl | hx
      · exact Store.canPin_exists (hrec r hr)
      · exact hs x hx r hr
    obtain ⟨e, he, hr, hsl⟩ := this
    exact ⟨_, List.mem_map_of_mem he, hr, hsl⟩
  case pins =>
    simp only [List.forall_mem_map]
    intro e he
    rw [((hperm.map _).sum_eq)]
    simp [Entry.repin, hp e he, Nat.add_comm]

/-- A job leaves a table, with the pins of its records. -/
theorem Store.pinsOk_leave {st : Store} {jobs : List Job} {j : Job} (h : st.pinsOk jobs)
    (hj : ∃ x ∈ jobs, x.entry = j.entry ∧ x.records = j.records) :
    (j.records.foldl Store.unpin st).pinsOk (jobs.filter fun x => x.entry != j.entry) := by
  obtain ⟨hi, hn, hl, hs, hp⟩ := h
  obtain ⟨x, hx, hxe, hxr⟩ := hj
  have hperm : jobs.Perm (x :: jobs.filter fun y => y.entry != j.entry) := by
    obtain ⟨a, b, rfl⟩ := List.append_of_mem hx
    simp only [List.map_append, List.map_cons, List.nodup_append, List.nodup_cons, List.mem_map, List.mem_cons] at hn
    have hrest : ∀ y, y ∈ a ∨ y ∈ b → y.entry ≠ j.entry := by
      rintro y (hy | hy) he
      · exact hn.2.2 _ ⟨y, hy, rfl⟩ _ (.inl rfl) (he.trans hxe.symm)
      · exact hn.2.1.1 ⟨y, hy, he.trans hxe.symm⟩
    rw [List.filter_append, List.filter_cons_of_neg (by simp [hxe]),
      List.filter_eq_self.2 fun y hy => by simpa using hrest y (.inl hy),
      List.filter_eq_self.2 fun y hy => by simpa using hrest y (.inr hy)]
    exact List.perm_middle
  rw [foldl_unpin_eq]
  refine ⟨by rwa [List.map_map], hn.sublist (List.filter_sublist.map _), by simpa [Entry.repin] using hl, ?sealed, ?pins⟩
  case sealed =>
    intro y hy r hr
    obtain ⟨e, he, hr, hsl⟩ := hs y (List.mem_of_mem_filter hy) r hr
    exact ⟨_, List.mem_map_of_mem he, hr, hsl⟩
  case pins =>
    simp only [List.forall_mem_map]
    intro e he
    have := hp e he
    rw [(hperm.map _).sum_eq, List.map_cons, List.sum_cons, hxr] at this
    simp only [Entry.repin]
    omega

theorem Store.foldl_pin_directoryOk {st : Store} (l : List Nat) (h : st.directoryOk) : (l.foldl Store.pin st).directoryOk := by
  rw [foldl_pin_eq]
  exact Store.repin_directoryOk _ l h

theorem Store.foldl_unpin_directoryOk {st : Store} (l : List Nat) (h : st.directoryOk) : (l.foldl Store.unpin st).directoryOk := by
  rw [foldl_unpin_eq]
  exact Store.repin_directoryOk _ l h

end Sys2Proof.Machine
end

section
/-!
PROOF. Failed pages, system writes and the restart reading keep the laws of the store.
-/

namespace Sys2Proof.Machine

/-! ## The page of a failed write (R133, R134) -/

/-- No page that waits for its retirement: none is still unlisted. -/
def Store.settledOk (st : Store) : Prop := ∀ x, st.retiring = some x → x.listed = true

/-- With none waiting, no owned page stands on the BAD list. -/
theorem Store.not_bad_of_settled {st : Store} (h : st.directoryOk) (hs : st.settledOk) :
    ∀ e ∈ st.dir, ∀ p ∈ e.img.pages, p ∉ st.bad := by
  obtain ⟨-, -, -, -, -, hbad⟩ := h
  intro e he p hp hb
  obtain ⟨x, hx, hl, -⟩ := hbad e he p hp hb
  simp [hs x hx] at hl

/-- With none waiting, what waits may be anything. -/
theorem Store.retiring_keeps {st : Store} (hs : st.settledOk) (r : Option Retiring) : st.Keeps { st with retiring := r } :=
  ⟨id, fun h => ⟨h.1, h.2.1, h.2.2.1, h.2.2.2.1, h.2.2.2.2.1, fun e he p hp hb =>
    absurd hb (Store.not_bad_of_settled h hs e he p hp)⟩, fun _ => id⟩

/-- The page that waited leaves the page list of its entry, and none waits any more (R133). -/
theorem Store.retire_keeps {st : Store} {x : Retiring} (hx : st.retiring = some x) :
    st.Keeps { st.updateAt x.entry (fun e => { e with img := { e.img with pages := e.img.pages.filter (· != x.page) } }) with
      retiring := none } := by
  have hf : ∀ e : Entry, e.Narrows { e with img := { e.img with pages := e.img.pages.filter (· != x.page) } } :=
    fun e => ⟨rfl, rfl, rfl, id, List.filter_sublist⟩
  have hk := st.updateAt_keeps x.entry hf
  refine ⟨hk.mem, fun h => ?_, hk.pins⟩
  obtain ⟨hi, hb, hu, hd, hn, -⟩ := hk.dir h
  refine ⟨hi, hb, hu, hd, hn, ?_⟩
  simp only [Store.updateAt, List.forall_mem_map]
  intro e he p hp hbad
  obtain ⟨-, -, -, -, -, hold⟩ := h
  have hsub : p ∈ e.img.pages := (narrows_ite (c := fun e => e.index == x.entry) hf e).pages.subset hp
  obtain ⟨y, hy, -, hyp, hye⟩ := hold e he p hsub hbad
  obtain rfl := Option.some.inj (hx.symm.trans hy)
  simp [hye.symm, hyp] at hp

/-- Whether a FILLING record fails, its entry keeps no page it had not. -/
theorem Store.fail_keeps {st : Store} {e : Entry} (he : e ∈ st.dir) (hs : e.img.sealed = false) (pos p : Nat) :
    st.Keeps (st.fail e pos p) := by
  unfold Store.fail
  split
  · refine .trans (st.updateAt_keeps e.index ?_) (.of_eq rfl rfl rfl rfl rfl)
    exact fun x => ⟨rfl, rfl, rfl, fun _ => rfl, List.filter_sublist⟩
  · exact Store.remove_keeps (removable_of_mem he (.inl hs))

/-- An entry of number `i` with a page put into its list at a position. -/
def Entry.givePage (i pos p : Nat) (e : Entry) : Entry :=
  if e.index == i then { e with img := { e.img with pages := e.img.pages.take pos ++ p :: e.img.pages.drop pos } } else e

theorem Entry.givePage_index (i pos p : Nat) (e : Entry) : (e.givePage i pos p).index = e.index := by
  unfold Entry.givePage
  split <;> rfl

theorem Entry.mem_givePage {i pos p q : Nat} {e : Entry} (h : q ∈ (e.givePage i pos p).img.pages) :
    q = p ∧ e.index = i ∨ q ∈ e.img.pages := by
  unfold Entry.givePage at h
  split at h
  · rename_i hi
    simp only [List.mem_append, List.mem_cons] at h
    rcases h with h | rfl | h
    · exact .inr (List.mem_of_mem_take h)
    · exact .inl ⟨rfl, by simpa using hi⟩
    · exact .inr (List.mem_of_mem_drop h)
  · exact .inr h

theorem Entry.givePage_nodup {i pos p : Nat} {e : Entry} (hp : p ∉ e.img.pages) (h : e.img.pages.Nodup) :
    (e.givePage i pos p).img.pages.Nodup := by
  unfold Entry.givePage
  split
  · rw [List.nodup_middle, List.take_append_drop]
    exact List.nodup_cons.2 ⟨hp, h⟩
  · exact h

/-- A replacement takes the position of the page that was retired: one that is FREE joins the entry's page list (R133). -/
theorem Store.replace_keeps (st : Store) (i pos : Nat) {p : Nat} (hp : p ∈ st.freePages) : st.Keeps (st.replace i pos p) := by
  obtain ⟨hdata, hnbad, hnused⟩ := Store.mem_freePages.1 hp
  have hnotin : ∀ e ∈ st.dir, p ∉ e.img.pages := fun e he h => hnused (Store.mem_used.2 ⟨e, he, h⟩)
  refine .trans (b := { st with dir := st.dir.map (Entry.givePage i pos p) }) ⟨id, fun h => ?_, fun jobs h => ?_⟩
    (Store.writeEntry_keeps ..)
  · obtain ⟨hi, hb, hu, hd, hn, hbad⟩ := h
    have hidx : (st.dir.map (Entry.givePage i pos p)).map (·.index) = st.dir.map (·.index) := by
      rw [List.map_map]
      exact List.map_congr_left fun e _ => e.givePage_index ..
    refine ⟨by rwa [hidx], ?bound, ?used, ?data, hn, ?bad⟩
    case bound => simpa [Entry.givePage_index] using hb
    case used =>
      obtain ⟨hone, hdis⟩ := List.nodup_flatMap.1 hu
      have hne : st.dir.Pairwise fun a b => a.index ≠ b.index := List.pairwise_map.1 hi
      refine List.nodup_flatMap.2 ⟨?_, List.pairwise_map.2 ((hne.and hdis).imp_of_mem ?_)⟩
      · simp only [List.forall_mem_map]
        exact fun e he => Entry.givePage_nodup (hnotin e he) (hone e he)
      · rintro a b ha hb' ⟨hab, hd'⟩ q hqa hqb
        rcases Entry.mem_givePage hqa with ⟨rfl, hia⟩ | ha'
        · rcases Entry.mem_givePage hqb with ⟨-, hib⟩ | hb''
          · exact hab (hia.trans hib.symm)
          · exact hnotin b hb' hb''
        · rcases Entry.mem_givePage hqb with ⟨rfl, -⟩ | hb''
          · exact hnotin a ha ha'
          · exact hd' ha' hb''
    case data =>
      intro q hq
      obtain ⟨x, hx, hqx⟩ := Store.mem_used.1 hq
      obtain ⟨e, he, rfl⟩ := List.mem_map.1 hx
      rcases Entry.mem_givePage hqx with ⟨rfl, -⟩ | hqe
      · exact hdata
      · exact hd q (Store.mem_used.2 ⟨e, he, hqe⟩)
    case bad =>
      simp only [List.forall_mem_map, Entry.givePage_index]
      intro e he q hq hqb
      rcases Entry.mem_givePage hq with ⟨rfl, -⟩ | hqe
      · exact absurd hqb hnbad
      · exact hbad e he q hqe hqb
  · have hg : ∀ e : Entry, (e.givePage i pos p).index = e.index ∧ (e.givePage i pos p).img.record = e.img.record ∧
        (e.givePage i pos p).pins = e.pins ∧ (e.givePage i pos p).img.sealed = e.img.sealed := fun e => by
      unfold Entry.givePage
      split <;> exact ⟨rfl, rfl, rfl, rfl⟩
    obtain ⟨hi, hj, hl, hs, hpin⟩ := h
    refine ⟨?_, hj, ?_, fun j hjm r hr => ?_, ?_⟩
    · simpa [List.map_map, Function.comp_def, hg] using hi
    · simpa [hg] using hl
    · obtain ⟨e, he, hr, hsl⟩ := hs j hjm r hr
      exact ⟨_, List.mem_map_of_mem he, (hg e).2.1.trans hr, (hg e).2.2.2.trans hsl⟩
    · simpa [hg] using hpin

/-- What waits for retirement does not matter to a reclamation. -/
theorem Store.reclaim_retiring (st : Store) (es : List Entry) (r : Option Retiring) :
    { st with retiring := r }.reclaim es = { st.reclaim es with retiring := r } := by
  unfold Store.reclaim
  induction es generalizing st with
  | nil => rfl
  | cons e es ih => exact ih (st.remove e)

@[simp] theorem Store.reclaim_retiring_eq (st : Store) (es : List Entry) : (st.reclaim es).retiring = st.retiring := by
  unfold Store.reclaim
  induction es generalizing st with
  | nil => rfl
  | cons e es ih => exact ih (st.remove e)

/-- A replacement page is FREE once the records chosen for it have been reclaimed. -/
theorem Store.replacement_some {st st' : Store} {p : Nat} {es : List Entry} (h : st.replacement = some (st', p, es)) :
    (∀ e ∈ es, e ∈ st.candidates) ∧ st' = st.reclaim es ∧ p ∈ st'.freePages := by
  unfold Store.replacement at h
  split at h
  · rename_i es' hes
    obtain ⟨q, hq, heq⟩ := Option.map_eq_some_iff.1 h
    obtain ⟨rfl, rfl, rfl⟩ : st.reclaim es' = st' ∧ q = p ∧ es' = es := by simpa using heq
    exact ⟨fun e he => (chooseReclaim_prefix hes).subset he, rfl, List.mem_of_head? hq⟩
  · cases h

/-- The store in which the page that waited has left the page list of its entry. -/
def Store.withoutPage (st : Store) (x : Retiring) : Store :=
  st.updateAt x.entry fun e => { e with img := { e.img with pages := e.img.pages.filter (· != x.page) } }

/-- What a retirement comes to: none of its entries is still FILLING; the record fails; or a FREE page takes the position. -/
theorem Store.settleRetiring_cases (st : Store) (x : Retiring) :
    let out := st.settleRetiring x
    let gone := { st.withoutPage x with retiring := none }
    (out = (gone, none, [])) ∨
    (∃ e ∈ gone.dir, e.img.sealed = false ∧ e.index = x.entry ∧ out = (gone.fail e x.position x.page, some e, [])) ∨
    ∃ es p ws ws', (∀ e ∈ es, e ∈ gone.candidates) ∧ p ∈ ({ gone with writes := ws }.reclaim es).freePages ∧ x.second = false ∧
      out = ({ ({ gone with writes := ws }.reclaim es).replace x.entry x.position p with
        writes := ws', retiring := some { x with listed := true } }, none, es) := by
  dsimp only
  unfold Store.settleRetiring
  dsimp only
  split
  · exact .inl rfl
  · rename_i e he
    have hmem := List.mem_of_find?_eq_some he
    have hfill := List.find?_some he
    simp only [Bool.and_eq_true, Bool.not_eq_true', beq_iff_eq] at hfill
    split
    · exact .inr (.inl ⟨e, hmem, hfill.2, hfill.1, rfl⟩)
    · rename_i hsecond
      split
      · rename_i st' p es hrep
        obtain ⟨hes, rfl, hp⟩ := Store.replacement_some hrep
        let first := { st.withoutPage x with writes := (st.withoutPage x).writes.takeWhile StoreWrite.isSys }
        have hnone := first.reclaim_retiring es none
        refine .inr (.inr ⟨es, p, first.writes, ((first.reclaim es).replace x.entry x.position p).writes ++
          (st.withoutPage x).writes.dropWhile StoreWrite.isSys, hes, ?_, by simpa using hsecond, ?_⟩)
        · exact hnone ▸ hp
        · exact Prod.ext (by rw [hnone]; rfl) rfl
      · exact .inr (.inl ⟨e, hmem, hfill.2, hfill.1, rfl⟩)

theorem Store.settleRetiring_keeps {st : Store} {x : Retiring} (hx : st.retiring = some x) : st.Keeps (st.settleRetiring x).1 := by
  have hret : st.Keeps { st.withoutPage x with retiring := none } := Store.retire_keeps hx
  rcases st.settleRetiring_cases x with h | ⟨e, he, hs, -, h⟩ | ⟨es, p, ws, ws', hes, hp, -, h⟩
  · rw [h]
    exact hret
  · rw [h]
    exact hret.trans (Store.fail_keeps he hs ..)
  · rw [h]
    have hnext : ∀ B : Store, st.Keeps B → B.retiring = none → ∀ r, st.Keeps { B with writes := ws', retiring := r } := fun B hB hn r =>
      (hB.trans (Store.retiring_keeps (fun y hy => by simp [hn] at hy) r)).trans (.of_eq rfl rfl rfl rfl rfl)
    have hrec := (hret.trans (Store.writes_keeps _ ws)).trans (Store.reclaim_candidates_keeps hes)
    exact hnext _ (hrec.trans (Store.replace_keeps _ x.entry x.position hp)) (Store.reclaim_retiring_eq _ es) _

/-- After a retirement no page waits for one. -/
theorem Store.settleRetiring_settled (st : Store) (x : Retiring) : (st.settleRetiring x).1.settledOk := by
  rcases st.settleRetiring_cases x with h | ⟨e, he, hs, -, h⟩ | ⟨es, p, ws, ws', hes, hp, -, h⟩
  · rw [h]
    rintro y ⟨⟩
  · rw [h]
    intro y hy
    unfold Store.fail at hy
    split at hy <;> cases hy
  · rw [h]
    rintro y ⟨⟩
    rfl

/-- A page that two entries own, of which none is owned twice, makes them one. -/
theorem eq_of_mem_pages {l : List Entry} (h : (l.flatMap fun e => e.img.pages).Nodup) {a b : Entry} (ha : a ∈ l) (hb : b ∈ l)
    {p : Nat} (hpa : p ∈ a.img.pages) (hpb : p ∈ b.img.pages) : a = b := by
  by_contra hne
  have hsymm : Std.Symm (Function.onFun List.Disjoint fun e : Entry => e.img.pages) := ⟨fun _ _ h => h.symm⟩
  exact (List.nodup_flatMap.1 h).2.forall ha hb hne hpa hpb

/-- A page whose write mismatched joins the BAD list, and waits for its retirement (R133). -/
theorem Store.mismatch_keeps {st : Store} (hs : st.settledOk) {e : Entry} (he : e ∈ st.dir) {pos p : Nat}
    (hp : e.img.pages[pos]? = some p) (bs : List Byte) (next : PageNext) : st.Keeps (st.mismatch e pos p bs next) := by
  have hf : ∀ e : Entry, e.Narrows { e with fails := 1 } := fun e => ⟨rfl, rfl, rfl, id, .refl _⟩
  have hk := st.updateAt_keeps e.index hf
  refine ⟨hk.mem, fun h => ?_, hk.pins⟩
  have hcalm := Store.not_bad_of_settled h hs
  obtain ⟨hi, hb, hu, hd, hn, -⟩ := hk.dir h
  refine ⟨hi, hb, hu, hd, hn, ?_⟩
  intro e' he' q hq hbad
  obtain ⟨y, hy, rfl⟩ := List.mem_map.1 he'
  have hnar := narrows_ite (c := fun x => x.index == e.index) hf y
  have hqy : q ∈ y.img.pages := hnar.pages.subset hq
  have hqp : q = p := by
    simp only [Store.mismatch, Store.writeBad, Store.push, Store.updateAt, mem_insertBy, List.mem_filter] at hbad
    exact hbad.resolve_right fun hb => hcalm y hy q hqy hb.1
  subst hqp
  refine ⟨_, rfl, rfl, rfl, ?_⟩
  have hpe : q ∈ e.img.pages := List.mem_of_getElem? hp
  rw [hnar.index, eq_of_mem_pages h.2.2.1 hy he hqy hpe]

/-- A page write matched: what had waited for the repeat waits no more (R132). -/
theorem Store.pageMatch_keeps {st : Store} (hs : st.settledOk) (r pos : Nat) (bs : List Byte) (next : PageNext) :
    st.Keeps (st.pageMatch r pos bs next) := by
  have hstored : st.Keeps { st.storePage r pos bs with retiring := none } := by
    refine (st.storePage_keeps r pos bs).trans (Store.retiring_keeps ?_ none)
    unfold Store.storePage
    split <;> exact hs
  have hver := hstored.trans (Store.verify_keeps _ r pos)
  unfold Store.pageMatch
  dsimp only
  split
  · split
    · refine hver.trans (Store.update_keeps _ r ?_)
      exact fun e => ⟨rfl, rfl, rfl, id, .refl _⟩
    · exact hver
  · exact (hver.trans (Store.closing_keeps ..)).trans (Store.writes_keeps ..)
  · exact hver.trans (Store.seal_keeps ..)

end Sys2Proof.Machine
end

section
/-!
PROOF. System and header writes, the cut, a new survey and the restart reading keep the laws of the store.
-/

namespace Sys2Proof.Machine

/-! ## The system region (R119, R120) -/

/-- The page lists of the entries written in the system region: data pages without a repeat. -/
def sysListsOk (sys : List (Nat × SysCell)) : Prop :=
  ∀ x ∈ sys, ∀ d, x.2.content = .entry d → d.pages.Nodup ∧ ∀ p ∈ d.pages, isDataPage p

/-- The content of an item has no page list but a sound one. -/
def SysContent.listOk (c : SysContent) : Prop := ∀ d, c = .entry d → d.pages.Nodup ∧ ∀ p ∈ d.pages, isDataPage p

theorem sysListsOk_put {nv : Region} (h : sysListsOk nv.sys) (a : Nat) {c : SysCell} (hc : c.content.listOk) :
    sysListsOk (nv.put a c).sys := by
  intro x hx d hd
  rcases mem_insertBy.1 hx with rfl | hx
  · exact hc d hd
  · exact h x (List.mem_of_mem_filter hx) d hd

theorem sysListsOk_erase {nv : Region} (h : sysListsOk nv.sys) (a : Nat) : sysListsOk (nv.erase a).sys :=
  fun x hx => h x (List.mem_of_mem_filter hx)

/-- What a sound store writes of its working copies has a sound page list. -/
theorem Store.content_listOk {st : Store} (h : st.directoryOk) {item : SysItem} {c : SysContent} (hc : st.content item = some c) :
    c.listOk := by
  obtain ⟨-, -, hu, hd, -, -⟩ := h
  cases item with
  | entry i r =>
    obtain ⟨e, he, rfl⟩ := Option.map_eq_some_iff.1 hc
    have hmem := List.mem_of_find?_eq_some he
    rintro d ⟨⟩
    exact ⟨((List.nodup_flatMap.1 hu).1 e hmem).sublist e.written_pages,
      fun p hp => hd p (Store.mem_used.2 ⟨e, hmem, e.written_pages.subset hp⟩)⟩
  | bad second => cases hc; rintro d ⟨⟩
  | ctl second => cases hc; rintro d ⟨⟩

/-- A change of the system region that keeps the data pages, and the page lists where the store is sound. -/
theorem Store.sys_keeps {st st' : Store} (hmem : st'.nv.mem = st.nv.mem) (hbad : st'.bad = st.bad) (hlast : st'.last = st.last)
    (hdir : st'.dir = st.dir) (hret : st'.retiring = st.retiring)
    (hsys : st.directoryOk → sysListsOk st'.nv.sys) : st.Keeps st' := by
  refine ⟨fun h => hmem ▸ h, fun h => ?_, fun jobs h => ?_⟩
  · obtain ⟨hi, hb, hu, hd, -, hbd⟩ := id h
    have hused : st'.used = st.used := by rw [Store.used, hdir, Store.used]
    refine ⟨hdir ▸ hi, hdir ▸ hb, hused ▸ hu, hused ▸ hd, hsys h, ?_⟩
    rw [hdir, hbad, hret]
    exact hbd
  · unfold Store.pinsOk
    rw [hdir, hlast]
    exact h

theorem Store.written_sys_ok {st : Store} (h : st.directoryOk) (item : SysItem) : sysListsOk (st.written item).sys := by
  unfold Store.written
  split
  · rename_i c hc
    exact sysListsOk_put h.2.2.2.2.1 _ (Store.content_listOk h hc)
  · exact sysListsOk_erase h.2.2.2.2.1 _

theorem Store.spoilt_sys_ok {st : Store} (h : st.directoryOk) (item : SysItem) : sysListsOk (st.spoilt item).sys := by
  unfold Store.spoilt
  split
  · rename_i c hc
    exact sysListsOk_put h.2.2.2.2.1 _ (Store.content_listOk h hc)
  · exact sysListsOk_erase h.2.2.2.2.1 _

@[simp] theorem Store.written_mem (st : Store) (item : SysItem) : (st.written item).mem = st.nv.mem := by
  unfold Store.written
  split <;> rfl

@[simp] theorem Store.spoilt_mem (st : Store) (item : SysItem) : (st.spoilt item).mem = st.nv.mem := by
  unfold Store.spoilt
  split <;> rfl

theorem header_listOk (h : Header) : (SysContent.header h).listOk := by rintro d ⟨⟩

theorem putHeader_sys_ok {nv : Region} (hs : sysListsOk nv.sys) (h : Header) : sysListsOk (nv.putHeader h).sys :=
  sysListsOk_put hs _ (header_listOk h)

theorem Store.writeSys_keeps (st : Store) (item : SysItem) : st.Keeps { st with nv := st.written item } :=
  Store.sys_keeps (st.written_mem item) rfl rfl rfl rfl fun h => Store.written_sys_ok h item

theorem Store.putHeader_keeps (st : Store) (h : Header) : st.Keeps { st with nv := st.nv.putHeader h } :=
  Store.sys_keeps rfl rfl rfl rfl rfl fun hd => putHeader_sys_ok hd.2.2.2.2.1 h

theorem Store.tearSys_mem (st : Store) (item : SysItem) : (st.tearSys item).nv.mem = st.nv.mem := by
  simp only [Store.tearSys]
  repeat' split
  all_goals simp

theorem Store.tearSys_keeps (st : Store) (item : SysItem) : st.Keeps (st.tearSys item) := by
  refine Store.sys_keeps (st.tearSys_mem item) rfl rfl rfl rfl fun h => ?_
  simp only [Store.tearSys]
  split
  · exact h.2.2.2.2.1
  · split
    · exact Store.spoilt_sys_ok h item
    · exact Store.written_sys_ok h item

theorem Store.tearHeader_keeps (st : Store) (h : Header) : st.Keeps (st.tearHeader h) := by
  refine Store.sys_keeps ?_ rfl rfl rfl rfl fun hd => ?_
  · simp only [Store.tearHeader]
    repeat' split
    all_goals rfl
  · simp only [Store.tearHeader]
    split
    · exact hd.2.2.2.2.1
    · split
      · exact sysListsOk_put hd.2.2.2.2.1 _ (header_listOk h)
      · exact putHeader_sys_ok hd.2.2.2.2.1 h

/-- The write that is reached leaves the queue, and nothing else changes. -/
theorem Store.reach_some {st st' : Store} {which : StoreWrite → Bool} {w : StoreWrite} (h : st.reach which = some (w, st')) :
    st' = { st with writes := st.writes.eraseP which } ∧ st.writes.find? which = some w := by
  obtain ⟨x, hx, heq⟩ := Option.map_eq_some_iff.1 h
  obtain ⟨rfl, rfl⟩ := Prod.mk.inj heq
  exact ⟨rfl, hx⟩

theorem Store.reach_keeps {st st' : Store} {which : StoreWrite → Bool} {w : StoreWrite} (h : st.reach which = some (w, st')) :
    st.Keeps st' := by
  rw [(Store.reach_some h).1]
  exact st.writes_keeps _

theorem Store.headerDone_keeps (st : Store) (ok : Bool) : st.Keeps (st.headerDone ok) := by
  unfold Store.headerDone
  split
  · rename_i h retried st' hr
    have hk := Store.reach_keeps hr
    split
    · exact hk.trans (st'.putHeader_keeps h)
    · split
      · exact hk.trans (st'.tearHeader_keeps h)
      · exact hk.trans (st'.writes_keeps _)
  · exact .refl st

/-! ## A cut (R12, R120, R132) -/

/-- What the write under way leaves when it is cut off. -/
def Store.tornStore (st : Store) : Store :=
  match st.writes with
  | [] => st
  | .sys item _ :: _ => st.tearSys item
  | .header h _ :: _ => st.tearHeader h
  | .page r pos bs _ :: _ =>
    match (st.entryOf r).bind fun e => e.img.pages[pos]? with
    | some p =>
      { st with nv := { st.nv with mem := st.nv.mem.writePage p (Config.bytesReached st.draws) bs }, draws := st.draws + 1 }
    | none => st

theorem Store.cut_eq (st : Store) : st.cut =
    { nv := st.dir.foldl keepHeader st.tornStore.nv, writes := [], bad := [], badCount := 0, last := 0, ctlCount := 0, dir := [],
      retiring := none, draws := st.tornStore.draws } := by
  unfold Store.cut Store.tornStore
  rcases st.writes with _ | ⟨w, ws⟩
  · rfl
  · cases w <;> rfl

theorem Store.tornStore_keeps (st : Store) : st.Keeps st.tornStore := by
  unfold Store.tornStore
  split
  · exact .refl st
  · exact st.tearSys_keeps _
  · exact st.tearHeader_keeps _
  · split
    · exact (st.mem_keeps fun h => Memory.writePage_wf h ..).trans (.of_eq rfl rfl rfl rfl rfl)
    · exact .refl st

theorem keepHeaders_sys (nv : Region) (es : List Entry) : (es.foldl keepHeader nv).sys = nv.sys := by
  induction es generalizing nv with
  | nil => rfl
  | cons e es ih => exact (ih _).trans (keepHeader_sys nv e)

theorem Store.cut_mem {st : Store} (h : Memory.wf st.nv.mem) : Memory.wf st.cut.nv.mem := by
  rw [Store.cut_eq]
  exact keepHeaders_wf (st.tornStore_keeps.mem h) _

theorem Store.cut_sys {st : Store} (h : st.directoryOk) : sysListsOk st.cut.nv.sys := by
  rw [Store.cut_eq]
  simp only [keepHeaders_sys]
  exact (st.tornStore_keeps.dir h).2.2.2.2.1

@[simp] theorem Store.cut_dir (st : Store) : st.cut.dir = [] := by rw [Store.cut_eq]

@[simp] theorem Store.cut_writes (st : Store) : st.cut.writes = [] := by rw [Store.cut_eq]

/-- A store without a live entry is sound when its system region is. -/
theorem Store.directoryOk_empty {st : Store} (hd : st.dir = []) (hs : sysListsOk st.nv.sys) : st.directoryOk := by
  refine ⟨by simp [hd], by simp [hd], by simp [Store.used, hd], by simp [Store.used, hd], hs, by simp [hd]⟩

/-- The pins agree with an empty job table where nothing is pinned. -/
theorem Store.pinsOk_nil {st : Store} (hi : (st.dir.map (·.index)).Nodup) (hl : ∀ e ∈ st.dir, e.img.record ≤ st.last)
    (hp : ∀ e ∈ st.dir, e.pins = 0) : st.pinsOk [] :=
  ⟨hi, .nil, hl, by simp, by simpa using hp⟩

theorem Store.clear_mem (st : Store) : st.clear.nv = st.nv := rfl

theorem Store.clear_directoryOk {st : Store} (h : st.directoryOk) : st.clear.directoryOk :=
  Store.directoryOk_empty rfl h.2.2.2.2.1

theorem Store.clear_pinsOk (st : Store) : st.clear.pinsOk [] :=
  Store.pinsOk_nil .nil (fun _ h => nomatch h) (fun _ h => nomatch h)

/-! ## The restart reading (R137 to R139) -/

theorem Region.entry_listOk {nv : Region} (h : sysListsOk nv.sys) {i : Nat} {d : DirImage} (hd : nv.entry i = some d) :
    d.pages.Nodup ∧ ∀ p ∈ d.pages, isDataPage p := by
  unfold Region.entry at hd
  split at hd
  · rename_i d' hr
    cases hd
    unfold Region.read at hr
    split at hr
    · rename_i x hx
      split at hr
      · exact h x (List.mem_of_find?_eq_some hx) d (Option.some.inj hr)
      · cases hr
    · cases hr
  · cases hd

theorem Region.mem_dir {nv : Region} {x : Nat × DirImage} : x ∈ nv.dir ↔ x.1 < 1024 ∧ nv.entry x.1 = some x.2 := by
  obtain ⟨i, d⟩ := x
  simp [Region.dir, Config.dirEntries]

theorem Region.dir_index (nv : Region) : (nv.dir.map (·.1)).Sublist (List.range 1024) := by
  have : nv.dir.map (·.1) = ((List.range 1024).filter fun i => (nv.entry i).isSome) := by
    rw [Region.dir, List.map_filterMap, ← List.filterMap_eq_filter]
    refine List.filterMap_congr fun i _ => ?_
    cases h : nv.entry i <;> simp [Option.guard, h]
  rw [this]
  exact List.filter_sublist

/-- A position is kept whose page is not on the BAD list and is not won by another entry (R137). -/
def keepsPage (bad : List Nat) (all : List (Nat × DirImage)) (x : Nat × DirImage) (p : Nat) : Bool :=
  !bad.contains p && !all.any fun y => wins x y && y.2.pages.contains p

theorem keptPositions_eq (bad : List Nat) (all : List (Nat × DirImage)) (x : Nat × DirImage) :
    keptPositions bad all x = (x.2.pages.takeWhile (keepsPage bad all x)).length := rfl

/-- The entry of which the positions before the first lost page are kept. -/
def keptEntry (bad : List Nat) (all : List (Nat × DirImage)) (x : Nat × DirImage) : Entry :=
  { index := x.1, img := { x.2 with pages := x.2.pages.takeWhile (keepsPage bad all x),
                                    verified := min x.2.verified (keptPositions bad all x) },
    pins := 0, fails := 0, noteId := none, keep := none, opened := [] }

theorem readEntry_eq (bad : List Nat) (all : List (Nat × DirImage)) (x : Nat × DirImage) :
    readEntry bad all x = if keptPositions bad all x = 0 then none else some (keptEntry bad all x) := by
  have htake : x.2.pages.take (keptPositions bad all x) = x.2.pages.takeWhile (keepsPage bad all x) :=
    (List.prefix_iff_eq_take.1 (List.takeWhile_prefix _)).symm
  simp only [readEntry, keptEntry, htake]

/-- The directory that a restart makes of the live entries found, with a BAD list (R137 step 3). -/
def readDir (bad : List Nat) (found : List (Nat × DirImage)) : List Entry := found.filterMap (readEntry bad found)

theorem mem_readDir {bad : List Nat} {found : List (Nat × DirImage)} {e : Entry} :
    e ∈ readDir bad found ↔ ∃ x ∈ found, keptPositions bad found x ≠ 0 ∧ keptEntry bad found x = e := by
  simp only [readDir, List.mem_filterMap, readEntry_eq, Option.ite_none_left_eq_some, Option.some.injEq, ne_eq]

/-- A key of what a filter makes of a list, read from the list itself. -/
theorem filterMap_map_sublist {α β γ : Type} {f : α → Option β} {g : β → γ} {k : α → γ} (h : ∀ x y, f x = some y → g y = k x)
    (l : List α) : ((l.filterMap f).map g).Sublist (l.map k) := by
  induction l with
  | nil => exact .refl _
  | cons x l ih =>
    rw [List.map_cons]
    cases hx : f x with
    | none =>
      rw [List.filterMap_cons_none hx]
      exact ih.cons _
    | some y =>
      rw [List.filterMap_cons_some hx, List.map_cons, h x y hx]
      exact ih.cons_cons _

theorem readEntry_index {bad : List Nat} {all : List (Nat × DirImage)} {x : Nat × DirImage} {e : Entry}
    (h : readEntry bad all x = some e) : e.index = x.1 := by
  rw [readEntry_eq] at h
  split at h
  · cases h
  · cases h
    rfl

theorem readDir_index (bad : List Nat) (found : List (Nat × DirImage)) :
    ((readDir bad found).map (·.index)).Sublist (found.map (·.1)) := filterMap_map_sublist (fun _ _ => readEntry_index) found

/-- Of two claims to a page one wins (R137; log 46). -/
theorem wins_total {x y : Nat × DirImage} (h : x.1 ≠ y.1) : wins x y = true ∨ wins y x = true := by
  simp only [wins, Bool.or_eq_true, Bool.and_eq_true, decide_eq_true_eq, beq_iff_eq]
  omega

theorem mem_keptEntry {bad : List Nat} {all : List (Nat × DirImage)} {x : Nat × DirImage} {p : Nat}
    (h : p ∈ (keptEntry bad all x).img.pages) :
    p ∈ x.2.pages ∧ p ∉ bad ∧ ∀ y ∈ all, wins x y = true → p ∉ y.2.pages := by
  have hk := List.mem_takeWhile_imp h
  simp only [keepsPage, Bool.and_eq_true, Bool.not_eq_true', List.any_eq_false, List.contains_eq_mem, decide_eq_true_eq,
    decide_eq_false_iff_not] at hk
  exact ⟨(List.takeWhile_prefix _).subset h, hk.1, fun y hy hw hp => hk.2 y hy ⟨hw, hp⟩⟩

/-- Two entries read share no page. -/
theorem readDir_disjoint {bad : List Nat} {found : List (Nat × DirImage)} {a b : Entry} (ha : a ∈ readDir bad found)
    (hb : b ∈ readDir bad found) (h : a.index ≠ b.index) : a.img.pages.Disjoint b.img.pages := by
  obtain ⟨x, hx, -, rfl⟩ := mem_readDir.1 ha
  obtain ⟨y, hy, -, rfl⟩ := mem_readDir.1 hb
  intro p hpx hpy
  obtain ⟨hpx, -, hwx⟩ := mem_keptEntry hpx
  obtain ⟨hpy, -, hwy⟩ := mem_keptEntry hpy
  rcases wins_total (x := x) (y := y) h with hw | hw
  · exact hwx y hy hw hpy
  · exact hwy x hx hw hpx

/-- The writes of entries from a list add these writes, and nothing else. -/
theorem foldl_writeEntry_eq {α : Type} (k : α → Nat) (l : List α) (st : Store) :
    l.foldl (fun st x => st.writeEntry (k x)) st = { st with
      writes := st.writes ++ l.map fun x =>
        .sys (.entry (k x) ((st.dir.find? fun e => e.index == k x).map (·.img.record))) false } := by
  induction l generalizing st with
  | nil => simp
  | cons x l ih =>
    rw [List.foldl_cons, ih]
    simp [Store.writeEntry, Store.push]

/-- The highest record number of the entries read, or a number that is as high (R137). -/
def topRecord (l : List (Nat × DirImage)) (n : Nat) : Nat := l.foldl (fun m x => max m x.2.record) n

theorem le_topRecord (l : List (Nat × DirImage)) (n : Nat) : n ≤ topRecord l n ∧ ∀ x ∈ l, x.2.record ≤ topRecord l n := by
  unfold topRecord
  induction l generalizing n with
  | nil => simp
  | cons x l ih =>
    obtain ⟨h1, h2⟩ := ih (max n x.2.record)
    simp only [List.foldl_cons, List.forall_mem_cons]
    exact ⟨by omega, by omega, h2⟩

/-- A page is found BAD that is tested and mismatches. -/
theorem mem_foldl_insertBy {p : Nat} {l m : List Nat} : p ∈ l.foldl (fun l p => insertBy id p l) m ↔ p ∈ l ∨ p ∈ m := by
  induction l generalizing m with
  | nil => simp
  | cons q l ih =>
    rw [List.foldl_cons, ih]
    simp only [mem_insertBy, List.mem_cons]
    tauto

theorem Store.mem_pageTest_bad {st : Store} {pages failing : List Nat} {p : Nat} :
    p ∈ (st.pageTest pages failing).1.bad ↔ (p ∈ pages ∧ p ∈ failing) ∨ p ∈ st.bad := by
  simp [Store.pageTest, mem_foldl_insertBy]

/-- The store of a restart reading before the page test, from the live entries found and the copies read (R137 steps 1 to 4). -/
def Store.readWith (st : Store) (bad : Option BadCopy) (ctl : Option CtlCopy) (found : List (Nat × DirImage)) : Store :=
  let dir := readDir ((bad.map BadCopy.pages).getD []) found
  { st with
    bad := (bad.map BadCopy.pages).getD []
    badCount := (bad.map BadCopy.count).getD 0
    last := topRecord found ((ctl.map CtlCopy.last).getD 0)
    ctlCount := (ctl.map CtlCopy.count).getD 0
    dir := dir
    retiring := none
    writes := st.writes ++ (found.filter fun x =>
        (dir.find? fun e => e.index == x.1).map (·.img.pages) != some x.2.pages).map fun x =>
      .sys (.entry x.1 ((dir.find? fun e => e.index == x.1).map (·.img.record))) false }

/-- A page test of the FREE pages, with the write of the BAD list (R137). -/
def Store.testFree (st : Store) (failing : List Nat) : Store × Nat :=
  ((st.pageTest st.freePages failing).1.writeBad, (st.pageTest st.freePages failing).2)

theorem Store.readRegion_eq (st : Store) (failing : List Nat) : st.readRegion failing =
    if st.nv.readBad.isNone then (st.readWith st.nv.readBad st.nv.readCtl st.nv.dir).testFree failing
    else (st.readWith st.nv.readBad st.nv.readCtl st.nv.dir, 0) := by
  unfold Store.readRegion
  generalize st.nv.dir = found
  dsimp only
  rw [foldl_writeEntry_eq fun x : Nat × DirImage => x.1]
  rfl

theorem Store.readWith_directoryOk {st : Store} (h : sysListsOk st.nv.sys) (bad : Option BadCopy) (ctl : Option CtlCopy)
    {found : List (Nat × DirImage)} (hi : (found.map (·.1)).Nodup) (hlt : ∀ x ∈ found, x.1 < 1024)
    (hl : ∀ x ∈ found, x.2.pages.Nodup ∧ ∀ p ∈ x.2.pages, isDataPage p) :
    (st.readWith bad ctl found).directoryOk ∧
      ∀ e ∈ (st.readWith bad ctl found).dir, ∀ p ∈ e.img.pages, p ∉ (st.readWith bad ctl found).bad := by
  have hidx := hi.sublist (readDir_index ((bad.map BadCopy.pages).getD []) found)
  have hone : ∀ e ∈ (st.readWith bad ctl found).dir, e.img.pages.Nodup ∧ ∀ p ∈ e.img.pages, isDataPage p := fun e he => by
    obtain ⟨x, hx, -, rfl⟩ := mem_readDir.1 he
    have hpre := List.takeWhile_prefix (l := x.2.pages) (keepsPage ((bad.map BadCopy.pages).getD []) found x)
    exact ⟨(hl x hx).1.sublist hpre.sublist, fun p hp => (hl x hx).2 p (hpre.subset hp)⟩
  have hcalm : ∀ e ∈ (st.readWith bad ctl found).dir, ∀ p ∈ e.img.pages, p ∉ (st.readWith bad ctl found).bad := fun e he p hp => by
    obtain ⟨x, -, -, rfl⟩ := mem_readDir.1 he
    exact (mem_keptEntry hp).2.1
  refine ⟨⟨hidx, fun e he => ?_, List.nodup_flatMap.2 ⟨fun e he => (hone e he).1, ?_⟩, fun p hp => ?_, h,
    fun e he p hp hb => absurd hb (hcalm e he p hp)⟩, hcalm⟩
  · obtain ⟨x, hx, -, rfl⟩ := mem_readDir.1 he
    exact hlt x hx
  · exact (List.pairwise_map.1 hidx).imp_of_mem fun ha hb hab => readDir_disjoint ha hb hab
  · obtain ⟨e, he, hpe⟩ := Store.mem_used.1 hp
    exact (hone e he).2 p hpe

theorem Store.mem_testFree_bad {st : Store} {failing : List Nat} {p : Nat} :
    p ∈ (st.testFree failing).1.bad ↔ (p ∈ st.freePages ∧ p ∈ failing) ∨ p ∈ st.bad := by
  unfold Store.testFree
  generalize st.freePages = free
  exact Store.mem_pageTest_bad

theorem Store.testFree_directoryOk {st : Store} (h : st.directoryOk) (hcalm : ∀ e ∈ st.dir, ∀ p ∈ e.img.pages, p ∉ st.bad)
    (failing : List Nat) : (st.testFree failing).1.directoryOk := by
  obtain ⟨hi, hb, hu, hd, hn, -⟩ := h
  refine ⟨hi, hb, hu, hd, hn, fun e he p hp hbad => ?_⟩
  rcases Store.mem_testFree_bad.1 hbad with ⟨hfree, -⟩ | hbad
  · obtain ⟨-, -, hunused⟩ := Store.mem_freePages.1 hfree
    exact absurd (Store.mem_used.2 ⟨e, he, hp⟩) hunused
  · exact absurd hbad (hcalm e he p hp)

theorem Store.readRegion_mem {st : Store} (h : Memory.wf st.nv.mem) (failing : List Nat) :
    Memory.wf (st.readRegion failing).1.nv.mem := by
  rw [Store.readRegion_eq]
  split
  · exact Memory.filter_wf h _
  · exact h

theorem Store.readRegion_dir (st : Store) (failing : List Nat) :
    (st.readRegion failing).1.dir = readDir ((st.nv.readBad.map BadCopy.pages).getD []) st.nv.dir := by
  rw [Store.readRegion_eq]
  generalize st.nv.dir = found
  split <;> rfl

theorem Store.readRegion_last (st : Store) (failing : List Nat) :
    (st.readRegion failing).1.last = topRecord st.nv.dir ((st.nv.readCtl.map CtlCopy.last).getD 0) := by
  rw [Store.readRegion_eq]
  generalize st.nv.dir = found
  split <;> rfl

theorem Region.dir_nodup (nv : Region) : (nv.dir.map (·.1)).Nodup := List.nodup_range.sublist nv.dir_index

theorem Store.readRegion_directoryOk {st : Store} (h : sysListsOk st.nv.sys) (failing : List Nat) :
    (st.readRegion failing).1.directoryOk := by
  obtain ⟨hok, hcalm⟩ := Store.readWith_directoryOk h st.nv.readBad st.nv.readCtl st.nv.dir_nodup
    (fun x hx => (Region.mem_dir.1 hx).1) fun x hx => Region.entry_listOk h (Region.mem_dir.1 hx).2
  rw [Store.readRegion_eq]
  split
  · exact Store.testFree_directoryOk hok hcalm failing
  · exact hok

/-! ## Format and lost power (R138, R139) -/

theorem Store.format_mem {st : Store} (h : Memory.wf st.nv.mem) (failing : List Nat) : Memory.wf (st.format failing).1.nv.mem := by
  simp only [Store.format]
  split
  · exact Memory.filter_wf h _
  · exact h

theorem Store.format_dir (st : Store) (failing : List Nat) : (st.format failing).1.dir = [] := by
  simp only [Store.format]
  split <;> rfl

theorem Store.format_sys (st : Store) (failing : List Nat) : (st.format failing).1.nv.sys = st.nv.sys := by
  simp only [Store.format]
  split <;> rfl

/-- The store that a restart reads, before the FILLING entries are sealed. -/
theorem Store.atRestart_ok (st : Store) (failing : List Nat) :
    let out := (st.atRestart failing).2.1
    (Memory.wf st.nv.mem → Memory.wf out.nv.mem) ∧ (sysListsOk st.nv.sys → out.directoryOk) ∧ out.pinsOk [] := by
  dsimp only
  unfold Store.atRestart
  split
  · refine ⟨fun h => Store.readRegion_mem h _, fun h => Store.readRegion_directoryOk h _, Store.pinsOk_nil ?_ ?_ ?_⟩
    · rw [Store.readRegion_dir]
      exact st.nv.dir_nodup.sublist (readDir_index ..)
    · rw [Store.readRegion_dir, Store.readRegion_last]
      intro e he
      obtain ⟨x, hx, -, rfl⟩ := mem_readDir.1 he
      exact (le_topRecord ..).2 x hx
    · rw [Store.readRegion_dir]
      intro e he
      obtain ⟨x, -, -, rfl⟩ := mem_readDir.1 he
      rfl
  · have hdir : ((st.format failing).1.push (.header freshHeader false)).dir = [] := st.format_dir failing
    refine ⟨fun h => Store.format_mem h _, fun h => Store.directoryOk_empty hdir ?_, Store.pinsOk_nil ?_ ?_ ?_⟩
    · exact (st.format_sys failing).symm ▸ h
    all_goals simp [hdir]

theorem Entry.losePower_narrows (e : Entry) : e.Narrows e.losePower := by
  unfold Entry.losePower
  split
  · exact .refl e
  · refine ⟨rfl, rfl, rfl, fun _ => rfl, ?_⟩
    dsimp only
    split
    · exact List.take_sublist ..
    · exact .refl _

theorem Entry.losePower_sealed (e : Entry) : e.losePower.img.sealed = true := by
  unfold Entry.losePower
  split
  · assumption
  · rfl

theorem foldl_showOpen_wf {m : Memory} (h : m.wf) (l : List Entry) :
    Memory.wf (l.foldl (fun m e => m.showOpen (e.img.pages.headD 0)) m) := by
  induction l generalizing m with
  | nil => exact h
  | cons e l ih => exact ih (Memory.showOpen_wf h _)

/-- The FILLING entries sealed LOST POWER, with their writes. -/
theorem Store.losePower_eq (st : Store) : st.losePower =
    { st with
      dir := st.dir.map Entry.losePower
      nv := { st.nv with
        mem := ((st.dir.filter fun e => !e.img.sealed).filter fun e => e.img.tag == .waveform).foldl
          (fun m e => m.showOpen (e.img.pages.headD 0)) st.nv.mem }
      writes := st.writes ++ ((st.dir.filter fun e => !e.img.sealed).map (·.index)).map fun i =>
        .sys (.entry i (((st.dir.map Entry.losePower).find? fun e => e.index == i).map (·.img.record))) false } := by
  unfold Store.losePower
  dsimp only
  rw [show Store.writeEntry = fun st i => st.writeEntry (id i) from rfl, foldl_writeEntry_eq]
  rfl

theorem Store.losePower_keeps (st : Store) : st.Keeps st.losePower := by
  rw [Store.losePower_eq]
  exact ((st.map_keeps Entry.losePower_narrows).trans (Store.mem_keeps _ fun h => foldl_showOpen_wf h _)).trans
    (.of_eq rfl rfl rfl rfl rfl)

/-- The store that a restart goes on with keeps the form of the data pages and the law of the directory of the store before it,
and pins nothing. -/
theorem Store.restart_ok (st : Store) (failing : List Nat) :
    let out := (st.cut.atRestart failing).2.1.losePower
    (Memory.wf st.nv.mem → Memory.wf out.nv.mem) ∧ (st.directoryOk → out.directoryOk) ∧ out.pinsOk [] := by
  obtain ⟨hm, hd, hp⟩ := st.cut.atRestart_ok failing
  have hk := (st.cut.atRestart failing).2.1.losePower_keeps
  exact ⟨fun h => hk.mem (hm (Store.cut_mem h)), fun h => hk.dir (hd (Store.cut_sys h)), hk.pins _ hp⟩

end Sys2Proof.Machine
end

section
/-!
PROOF. What every operation of the part keeps, each law from itself alone: the frame of the laws, and the operations of the
line, of time, of the notes table and of the capture unit.
-/

namespace Sys2Proof.Machine

/-! ## The laws of a state, part by part -/

/-- The law of the transmit queue on the line interface alone. -/
def Line.ok (l : Line) : Prop :=
  l.queue.length ≤ 8 ∧ (l.muted = true → l.queue = []) ∧ (l.queue.filter (·.sending)).length ≤ 1 ∧
    (l.queue.filter fun f => f.payload.isBeacon && !f.sending).length ≤ 1

/-- A change of the state that keeps the commands that wait and the laws of Safety.lean, each from itself alone. -/
structure State.Keeps (s t : State) : Prop where
  pending : t.pending = s.pending
  mem : s.memoryOk → t.memoryOk
  line : s.line.ok → t.line.ok
  prn : s.prn.ok → t.prn.ok
  notes : notesOk s.notes → notesOk t.notes
  bounded : s.bounded → t.bounded
  ctr : s.ctr.ok → t.ctr.ok
  slots : slotsOk s.cap.slots → slotsOk t.cap.slots
  dir : s.directoryOk → t.directoryOk
  pins : s.pinsOk → t.pinsOk

/-- A change that keeps what waits and every law but that of pins. -/
structure State.KeepsRest (s t : State) : Prop where
  pending : t.pending = s.pending
  mem : s.memoryOk → t.memoryOk
  line : s.line.ok → t.line.ok
  prn : s.prn.ok → t.prn.ok
  notes : notesOk s.notes → notesOk t.notes
  bounded : s.bounded → t.bounded
  ctr : s.ctr.ok → t.ctr.ok
  slots : slotsOk s.cap.slots → slotsOk t.cap.slots
  dir : s.directoryOk → t.directoryOk

theorem State.KeepsRest.refl (s : State) : s.KeepsRest s := ⟨rfl, id, id, id, id, id, id, id, id⟩

theorem State.KeepsRest.trans {a b c : State} (h : a.KeepsRest b) (k : b.KeepsRest c) : a.KeepsRest c :=
  ⟨k.pending.trans h.pending, k.mem ∘ h.mem, k.line ∘ h.line, k.prn ∘ h.prn, k.notes ∘ h.notes, k.bounded ∘ h.bounded,
    k.ctr ∘ h.ctr, k.slots ∘ h.slots, k.dir ∘ h.dir⟩

theorem State.KeepsRest.keeps {s t : State} (h : s.KeepsRest t) (hp : s.pinsOk → t.pinsOk) : s.Keeps t :=
  ⟨h.pending, h.mem, h.line, h.prn, h.notes, h.bounded, h.ctr, h.slots, h.dir, hp⟩

namespace State.Keeps

theorem rest {s t : State} (h : s.Keeps t) : s.KeepsRest t :=
  ⟨h.pending, h.mem, h.line, h.prn, h.notes, h.bounded, h.ctr, h.slots, h.dir⟩

theorem refl (s : State) : s.Keeps s := ⟨rfl, id, id, id, id, id, id, id, id, id⟩

theorem trans {a b c : State} (h : a.Keeps b) (k : b.Keeps c) : a.Keeps c :=
  ⟨k.pending.trans h.pending, k.mem ∘ h.mem, k.line ∘ h.line, k.prn ∘ h.prn, k.notes ∘ h.notes, k.bounded ∘ h.bounded,
    k.ctr ∘ h.ctr, k.slots ∘ h.slots, k.dir ∘ h.dir, k.pins ∘ h.pins⟩

/-- What the laws do not speak of may change. -/
theorem free (s : State) (mode : Mode) (clock : Clock) (pins : Pins) (straps : Straps) (cause : Cause) (ckpt : Option Nat)
    (lev : Level) (ev : EventUnit) (har : Harmonic) :
    s.Keeps { s with mode := mode, clock := clock, pins := pins, straps := straps, lastCause := cause, ckpt := ckpt, lev := lev,
                     ev := ev, har := har } := ⟨rfl, id, id, id, id, id, id, id, id, id⟩

theorem withSup (s : State) {sup : Supply} (h : sup.opening = s.sup.opening) : s.Keeps { s with sup := sup } :=
  ⟨rfl, id, id, id, id, id, id, id, id, fun hp => ⟨fun ho => hp.1 (h ▸ ho), hp.2⟩⟩

theorem withLine (s : State) {l : Line} (h : s.line.ok → l.ok) : s.Keeps { s with line := l } :=
  ⟨rfl, id, h, id, id, id, id, id, id, id⟩

theorem withPrn (s : State) {p : Printer} (h : s.prn.ok → p.ok) : s.Keeps { s with prn := p } :=
  ⟨rfl, id, id, h, id, id, id, id, id, id⟩

theorem withNotes (s : State) {l : List NoteEntry} (h : notesOk s.notes → notesOk l) : s.Keeps { s with notes := l } :=
  ⟨rfl, id, id, id, h, id, id, id, id, id⟩

theorem withCtr (s : State) {c : Counters} (h : s.ctr.ok → c.ok) : s.Keeps { s with ctr := c } :=
  ⟨rfl, id, id, id, id, id, h, id, id, id⟩

theorem withStore (s : State) {st : Store} (h : s.store.Keeps st) : s.Keeps { s with store := st } :=
  ⟨rfl, h.mem, id, id, id, id, id, id, h.dir, fun hp => ⟨hp.1, h.pins _ hp.2⟩⟩

theorem withTb (s : State) {tb : Timebase} (h : s.tb.history.length ≤ 8 → tb.history.length ≤ 8) : s.Keeps { s with tb := tb } :=
  ⟨rfl, id, id, id, id, fun hb => ⟨hb.1, hb.2.1, h hb.2.2.1, hb.2.2.2⟩, id, id, id, id⟩

theorem withHdr (s : State) {hdr : Header} (h : s.hdr.log.length ≤ 8 → hdr.log.length ≤ 8) : s.Keeps { s with hdr := hdr } :=
  ⟨rfl, id, id, id, id, fun hb => ⟨hb.1, hb.2.1, hb.2.2.1, h hb.2.2.2⟩, id, id, id, id⟩

theorem withCap (s : State) {c : Capture} (hr : s.cap.ring.length ≤ 512 → c.ring.length ≤ 512)
    (hs : slotsOk s.cap.slots → slotsOk c.slots) : s.Keeps { s with cap := c } :=
  ⟨rfl, id, id, id, id, fun hb => ⟨hb.1, hr hb.2.1, hb.2.2⟩, id, hs, id, id⟩

/-- The slots change besides. -/
theorem setSlots {s t : State} (h : s.Keeps t) {l : List Slot} (hl : slotsOk s.cap.slots → slotsOk l) :
    s.Keeps { t with cap := { t.cap with slots := l } } :=
  ⟨h.pending, h.mem, h.line, h.prn, h.notes, h.bounded, h.ctr, hl, h.dir, h.pins⟩

/-- The counters change besides. -/
theorem setCtr {s t : State} (h : s.Keeps t) {c : Counters} (hc : t.ctr.ok → c.ok) : s.Keeps { t with ctr := c } :=
  h.trans (.withCtr t hc)

/-- The store changes besides. -/
theorem setStore {s t : State} (h : s.Keeps t) {st : Store} (hst : t.store.Keeps st) : s.Keeps { t with store := st } :=
  h.trans (.withStore t hst)

end State.Keeps

/-! ## Time (R9, R151) -/

/-- A change of the entries that leaves each of its kind. -/
theorem notesOk_map {t : List NoteEntry} {g : NoteEntry → NoteEntry} (hg : ∀ e, (g e).site = e.site) (h : notesOk t) :
    notesOk (t.map g) := by
  obtain ⟨hl, hs⟩ := h
  refine ⟨by simpa using hl, ?_⟩
  rw [List.filter_map, List.length_map, Function.comp_def]
  simpa [hg] using hs

@[simp] theorem expireAt_site (t : Nat) (e : NoteEntry) : (e.expireAt t).site = e.site := by
  unfold NoteEntry.expireAt
  repeat' split
  all_goals rfl

theorem setSurvey_keeps (s : State) (t phase : Nat) : s.Keeps (s.setSurvey t phase) :=
  (State.Keeps.free s s.mode { s.clock with survey := t, phase := phase } s.pins s.straps s.lastCause s.ckpt s.lev s.ev s.har).trans
    (.withNotes _ (notesOk_map (expireAt_site t)))

theorem pass_keeps (s : State) (d : Nat) : s.Keeps (s.pass d) := by
  have hnow := State.Keeps.free s s.mode { s.clock with now := s.clock.now + d } s.pins s.straps s.lastCause s.ckpt s.lev s.ev s.har
  unfold State.pass
  dsimp only
  split
  · exact hnow.trans (setSurvey_keeps ..)
  · exact hnow

theorem passTo_keeps (s : State) (t : Nat) : s.Keeps (s.passTo t) := by
  unfold State.passTo
  split
  · exact pass_keeps ..
  · exact .refl s

theorem passToSurvey_keeps (s : State) (t : Nat) : s.Keeps (s.passToSurvey t) := by
  unfold State.passToSurvey
  split
  · exact pass_keeps ..
  · exact .refl s

theorem tick_keeps (s : State) : s.Keeps s.tick := by
  unfold State.tick
  split
  · exact .refl s
  · exact pass_keeps ..

/-! ## The transmit queue (R185, R186, R190) -/

theorem Line.ok_of_sublist {l : Line} {q : List TxFrame} (h : l.ok) (hq : q.Sublist l.queue) : { l with queue := q }.ok := by
  obtain ⟨h8, hm, hs, hb⟩ := h
  refine ⟨hq.length_le.trans h8, fun hmute => ?_, (hq.filter _).length_le.trans hs, (hq.filter _).length_le.trans hb⟩
  have := hq.length_le
  rw [hm hmute] at this
  simpa using this

/-- A change of each frame that leaves whether it is under transmission and whether it is a beacon. -/
theorem Line.ok_map {l : Line} {g : TxFrame → TxFrame} (hs : ∀ f, (g f).sending = f.sending)
    (hb : ∀ f, (g f).payload.isBeacon = f.payload.isBeacon) (h : l.ok) : { l with queue := l.queue.map g }.ok := by
  obtain ⟨h8, hm, hsend, hwait⟩ := h
  refine ⟨by simpa using h8, fun hmute => by simp [hm hmute], ?_, ?_⟩ <;>
    simpa only [List.filter_map, List.length_map, Function.comp_def, hs, hb]

theorem displace_sublist {p : Nat} {q q' : List TxFrame} (h : displace p q = some q') : q'.Sublist q ∧ q'.length + 1 = q.length := by
  unfold displace at h
  split at h
  · rename_i hany
    cases h
    obtain ⟨x, hx, hpx⟩ := List.any_eq_true.1 hany
    refine ⟨?_, ?_⟩
    · rw [← List.reverse_sublist, List.reverse_reverse]
      exact List.eraseP_sublist
    · have := List.length_eraseP_of_mem (p := fun f => decide (p < f.payload.priority) && !f.sending) (List.mem_reverse.2 hx) hpx
      have hpos := List.length_pos_of_mem hx
      simp only [List.length_reverse] at *
      omega
  · cases h

/-- A frame joins a queue, at most in the place of another, or is not queued. -/
theorem joinQueue_cases {q : List TxFrame} (h8 : q.length ≤ 8) (f : TxFrame) :
    joinQueue q f = q ∨ ∃ q' : List TxFrame, q'.Sublist q ∧ q'.length < 8 ∧ joinQueue q f = q' ++ [f] := by
  unfold joinQueue
  split
  · exact .inr ⟨q, .refl q, ‹_›, rfl⟩
  · split
    · rename_i q' hq'
      obtain ⟨hsub, hlen⟩ := displace_sublist hq'
      exact .inr ⟨q', hsub, by omega, rfl⟩
    · exact .inl rfl

theorem Line.ok_join {l : Line} (h : l.ok) (hm : l.muted = false) {f : TxFrame} (hf : f.sending = false)
    (hb : f.payload.isBeacon = true → ∀ g ∈ l.queue, (g.payload.isBeacon && !g.sending) = false) :
    { l with queue := joinQueue l.queue f }.ok := by
  rcases joinQueue_cases h.1 f with he | ⟨q', hsub, hlen, he⟩
  · rw [he]
    exact h
  · obtain ⟨-, -, hs, hw⟩ := Line.ok_of_sublist h hsub
    rw [he]
    refine ⟨by simpa using hlen, by simp [hm], by simpa [hf] using hs, ?_⟩
    cases hbeacon : f.payload.isBeacon with
    | false => simpa [hbeacon] using hw
    | true =>
      have hnone : q'.filter (fun f => f.payload.isBeacon && !f.sending) = [] :=
        List.filter_eq_nil_iff.2 fun g hg => by simp [hb hbeacon g (hsub.subset hg)]
      simp only [List.filter_append, hnone, List.nil_append]
      exact List.length_filter_le ..

theorem Line.ok_handOver {l : Line} (h : l.ok) (now : Nat) (p : Payload) (a : Nat) : (l.handOver now p a).ok := by
  unfold Line.handOver
  split
  · exact h
  · rename_i hm
    have hm : l.muted = false := by simpa using hm
    dsimp only
    split
    · refine Line.ok_join (l := { l with queue := _ }) (Line.ok_of_sublist h List.filter_sublist) hm rfl fun _ g hg => ?_
      have hnot := (List.mem_filter.1 hg).2
      cases hgb : g.payload.isBeacon <;> cases hgs : g.sending <;> simp_all
    · rename_i hb
      exact Line.ok_join h hm rfl fun hbeacon => absurd hbeacon hb

theorem Line.ok_withdraw {l : Line} (h : l.ok) (which : Payload → Bool) : (l.withdraw which).ok := by
  refine Line.ok_map (l := { l with queue := _ }) (fun f => ?_) (fun f => ?_) (Line.ok_of_sublist h List.filter_sublist)
  all_goals split <;> rfl

theorem Line.ok_of_queue {l l' : Line} (h : l.ok) (hq : l'.queue = l.queue) (hm : l'.muted = l.muted) : l'.ok := by
  unfold Line.ok
  rw [hq, hm]
  exact h

theorem Line.ok_empty {l : Line} (h : l.queue = []) : l.ok := by
  simp [Line.ok, h]

theorem send_keeps (s : State) (p : Payload) (a : Nat) : s.Keeps (s.send p a) :=
  .withLine s fun h => Line.ok_handOver h ..

theorem answer_keeps (s : State) (r c j : Nat) (f : Bool) (a : Nat) : s.Keeps (s.answer r c j f a) := send_keeps ..

theorem withdraw_keeps (s : State) (which : Payload → Bool) : s.Keeps { s with line := s.line.withdraw which } :=
  .withLine s fun h => Line.ok_withdraw h which

theorem refresh_keeps (s : State) (n now : Nat) (b : Option BeaconInfo) : s.Keeps { s with line := s.line.refresh n now b } :=
  .withLine s fun h => Line.ok_of_queue h rfl rfl

theorem conflict_keeps (s : State) : s.Keeps s.conflict := .withLine s fun _ => Line.ok_empty rfl

/-- A frame is taken by what keeps the laws. -/
theorem receive_keeps (s : State) (rx : Rx) (b : Option BeaconInfo) {take : State → State} (h : ∀ x : State, x.sup.opening = none → x.Keeps (take x)) :
    s.Keeps (s.receive rx b take) := by
  unfold State.receive
  split
  · exact .refl s
  · rename_i hhear
    have hopen : s.sup.opening = none := by
      simp only [State.listening, Bool.or_eq_true, Bool.not_eq_true', not_or, Bool.not_eq_false, Bool.and_eq_true,
        Option.isNone_iff_eq_none] at hhear
      exact hhear.1.2
    split
    · exact conflict_keeps s
    · dsimp only
      split
      · exact (refresh_keeps ..).trans (h _ hopen)
      · exact refresh_keeps ..

/-! ## The header, and records (R12, R126) -/

theorem writeHeader_keeps (s : State) : s.Keeps s.writeHeader := by
  have hhdr := State.Keeps.withHdr s (hdr := { s.hdr with checkpoint := s.clock.survey }) id
  exact (hhdr.trans (.withStore _ (s.store.push_keeps _))).trans (.free ..)

theorem satAdd_le (n k : Nat) : satAdd n k ≤ 65535 := min_le_right _ _

/-- The counters' law, counter by counter. -/
theorem Counters.ok_iff (c : Counters) : c.ok ↔ c.events ≤ 65535 ∧ c.summariesLost ≤ 65535 ∧ c.companionsOpened ≤ 65535 ∧
    c.companionsMissed ≤ 65535 ∧ c.capturesTruncated ≤ 65535 ∧ c.capturesNoWave ≤ 65535 ∧ c.triggersStale ≤ 65535 ∧
    c.intervalsSealed ≤ 65535 ∧ c.intervalsLost ≤ 65535 ∧ c.blocksTimebase ≤ 65535 ∧ c.blocksEvent ≤ 65535 ∧
    c.recordsReclaimed ≤ 65535 ∧ c.badPages ≤ 65535 ∧ c.notesExpiredEarly ≤ 65535 ∧ c.jobsCompleted ≤ 65535 ∧
    c.jobsAbandoned ≤ 65535 ∧ c.jobsRefused ≤ 65535 := by
  simp [Counters.ok, Counters.list]

theorem Counters.ok_reclaimed {c : Counters} (h : c.ok) (es : List Entry) : (c.reclaimed es).ok := by
  rw [Counters.ok_iff] at *
  simp [Counters.reclaimed, satAdd_le, h]

theorem create_keeps (s : State) (req : CreateRequest) : s.Keeps (s.create req).1 :=
  (State.Keeps.withStore s (s.store.create_keeps ..)).trans (.withCtr _ fun h => Counters.ok_reclaimed h _)

theorem pushWrite_keeps (s : State) (w : StoreWrite) : s.Keeps { s with store := s.store.push w } := .withStore s (s.store.push_keeps w)

theorem storeOnePage_keeps (s : State) (tag : Tag) (noteId : Option Nat) (bs : List Byte) :
    s.Keeps (s.storeOnePage tag noteId bs).1 := by
  unfold State.storeOnePage
  dsimp only
  split
  · exact (create_keeps ..).trans (pushWrite_keeps ..)
  · exact create_keeps ..

/-! ## Notes (R143 to R150) -/

theorem notesOk_sublist {t t' : List NoteEntry} (h : notesOk t) (hs : t'.Sublist t) : notesOk t' :=
  ⟨hs.length_le.trans h.1, (hs.filter _).length_le.trans h.2⟩

theorem notesOk_append {t : List NoteEntry} {e : NoteEntry} (hl : t.length < 32)
    (hs : (t.filter (·.site)).length + e.site.toNat ≤ 4) : notesOk (t ++ [e]) := by
  refine ⟨by simpa using hl, ?_⟩
  cases he : e.site <;> simp_all

/-- A full table gives up an entry (R148): of its entries at most 4 are SITE. -/
theorem evict_spec {t : List NoteEntry} (h : notesOk t) (hfull : 32 ≤ t.length) :
    (evict t).1.Sublist t ∧ (evict t).1.length < 32 := by
  have hex : ∀ p : NoteEntry → Bool, t.any p = true → (t.eraseP p).length < 32 := fun p hp => by
    obtain ⟨x, hx, hpx⟩ := List.any_eq_true.1 hp
    have := List.length_eraseP_of_mem hx hpx
    have := h.1
    have := List.length_pos_of_mem hx
    omega
  unfold evict
  split
  · exact ⟨List.eraseP_sublist, hex _ ‹_›⟩
  · split
    · exact ⟨List.eraseP_sublist, hex _ ‹_›⟩
    · rename_i hsite
      have hall : t.filter (·.site) = t := List.filter_eq_self.2 fun e he => by
        simp only [List.any_eq_true, not_exists, not_and, Bool.not_eq_true', Bool.not_eq_false] at hsite
        exact hsite e he
      have := h.2
      rw [hall] at this
      omega

theorem countP_eraseP_add_one {α : Type} {p : α → Bool} {l : List α} {x : α} (hx : x ∈ l) (hp : p x = true) :
    (l.eraseP p).countP p + 1 = l.countP p := by
  induction l with
  | nil => cases hx
  | cons y l ih =>
    cases hy : p y with
    | true => simp [hy]
    | false =>
      have hxl : x ∈ l := (List.mem_cons.1 hx).resolve_left fun he => by simp [he, hy] at hp
      simpa [hy] using ih hxl

theorem joinNotes_ok {t : List NoteEntry} (h : notesOk t) (e : NoteEntry) : notesOk (joinNotes t e).1 := by
  have hsites : ∀ t' : List NoteEntry, t'.Sublist t → ¬(e.site && 4 ≤ (t.filter (·.site)).length) = true →
      (t'.filter (·.site)).length + e.site.toNat ≤ 4 := fun t' hsub hfew => by
    have hle := (hsub.filter (·.site)).length_le
    have := h.2
    cases hse : e.site <;> simp_all <;> omega
  unfold joinNotes
  split
  · rename_i hc
    simp only [Bool.and_eq_true, decide_eq_true_eq] at hc
    obtain ⟨he, h4⟩ := hc
    have hex : ∃ x ∈ t, x.site = true := by
      obtain ⟨x, hx⟩ := List.exists_mem_of_length_pos (l := t.filter (·.site)) (by omega)
      exact ⟨x, (List.mem_filter.1 hx).1, (List.mem_filter.1 hx).2⟩
    obtain ⟨x, hx, hxs⟩ := hex
    have hlen := List.length_eraseP_of_mem (p := (·.site)) hx hxs
    have hpos := List.length_pos_of_mem hx
    have h32 := h.1
    refine notesOk_append (by omega) ?_
    have hcount : ((t.eraseP (·.site)).filter (·.site)).length + 1 = (t.filter (·.site)).length := by
      rw [← List.countP_eq_length_filter, ← List.countP_eq_length_filter, countP_eraseP_add_one (p := (·.site)) hx hxs]
    have := h.2
    have := Bool.toNat_le e.site
    omega
  · rename_i hfew
    split
    · exact notesOk_append ‹_› (hsites t (.refl t) hfew)
    · obtain ⟨hsub, hlen⟩ := evict_spec h (by omega)
      exact notesOk_append hlen (hsites _ hsub hfew)

end Sys2Proof.Machine
end

section
/-!
PROOF. What the notes table, the capture unit, the event unit, the timebase and the harmonic analyser keep, operation by
operation (chapters 2 to 6 and 8).
-/

namespace Sys2Proof.Machine

/-- A fold of what keeps the laws keeps them. -/
theorem foldl_keeps {α : Type} {f : State → α → State} (h : ∀ (s : State) a, s.Keeps (f s a)) (l : List α) (s : State) :
    s.Keeps (l.foldl f s) := by
  induction l generalizing s with
  | nil => exact .refl s
  | cons a l ih => exact (h s a).trans (ih _)

/-! ## A note that is taken (R146 to R150) -/

@[simp] theorem NoteEntry.correct_site (e : NoteEntry) (n : Note) : (e.correct n).site = e.site := by
  unfold NoteEntry.correct
  dsimp only
  repeat' split
  all_goals rfl

theorem applyNote_ok {t : List NoteEntry} (h : notesOk t) (n : Note) : notesOk (applyNote t n).1 := by
  unfold applyNote
  split
  · exact notesOk_map (fun e => by split <;> simp) h
  · exact joinNotes_ok h _

theorem setNoteRecord_ok {t : List NoteEntry} (h : notesOk t) (id : Nat) (r : Option Nat) : notesOk (setNoteRecord t id r) :=
  notesOk_map (fun e => by split <;> rfl) h

theorem takeNote_keeps (s : State) (n : Note) (scope : Nat) : s.Keeps (s.takeNote n scope) := by
  have hctr : s.ctr.ok → { s.ctr with notesExpiredEarly := satAdd s.ctr.notesExpiredEarly (applyNote s.notes n).2 }.ok := fun h => by
    rw [Counters.ok_iff] at *
    simp [satAdd_le, h]
  have happly := (State.Keeps.withNotes s fun h => applyNote_ok h n).trans (.withCtr _ hctr)
  unfold State.takeNote
  dsimp only
  split
  · exact happly.trans (storeOnePage_keeps ..)
  · exact (happly.trans (storeOnePage_keeps ..)).trans (.withNotes _ fun h => setNoteRecord_ok h ..)

/-! ## The slots (R78) -/

/-- The bounds of a slot's level. -/
def Slot.levelOk (sl : Slot) : Prop := sl.level ≤ 3 ∧ (sl.kind = .companion → sl.level = 0)

theorem slotsOk_map {l : List Slot} {g : Slot → Slot} (hnum : ∀ x ∈ l, (g x).num = x.num)
    (hlevel : ∀ x ∈ l, x.levelOk → (g x).levelOk) (h : slotsOk l) : slotsOk (l.map g) := by
  obtain ⟨hn, hs⟩ := h
  have hmap : (l.map g).map (·.num) = l.map (·.num) := by
    rw [List.map_map]
    exact List.map_congr_left hnum
  refine ⟨hmap ▸ hn, List.forall_mem_map.2 fun x hx => ?_⟩
  obtain ⟨h1, h3, hl⟩ := hs x hx
  exact ⟨(hnum x hx).symm ▸ h1, (hnum x hx).symm ▸ h3, hlevel x hx hl⟩

theorem slotsOk_sublist {l l' : List Slot} (h : slotsOk l) (hs : l'.Sublist l) : slotsOk l' :=
  ⟨h.1.sublist (hs.map _), fun x hx => h.2 x (hs.subset hx)⟩

/-- A slot of a sound number and level takes its place. -/
theorem slotsOk_put {l : List Slot} (h : slotsOk l) {sl : Slot} (hn : 1 ≤ sl.num ∧ sl.num ≤ 3) (hl : sl.levelOk) :
    slotsOk (putSlot l sl) := by
  obtain ⟨hnodup, hs⟩ := slotsOk_sublist h (List.filter_sublist (p := fun x => x.num != sl.num))
  refine ⟨?_, fun x hx => ?_⟩
  · refine ((insertBy_perm _ sl _).map (·.num)).nodup_iff.2 (List.nodup_cons.2 ⟨?_, hnodup⟩)
    simp
  · rcases mem_insertBy.1 hx with rfl | hx
    · exact ⟨hn.1, hn.2, hl⟩
    · exact hs x hx

/-- The filling of pages moves held bytes alone. -/
theorem fillPages_slot (n : Nat) (sl : Slot) (st : Store) : (fillPages n sl st).1.num = sl.num ∧
    (fillPages n sl st).1.level = sl.level ∧ (fillPages n sl st).1.kind = sl.kind := by
  induction n generalizing sl st with
  | zero => exact ⟨rfl, rfl, rfl⟩
  | succ n ih =>
    unfold fillPages
    split
    · exact ih ..
    · exact ⟨rfl, rfl, rfl⟩

theorem fillPages_keeps (n : Nat) (sl : Slot) (st : Store) : st.Keeps (fillPages n sl st).2 := by
  induction n generalizing sl st with
  | zero => exact .refl st
  | succ n ih =>
    unfold fillPages
    split
    · exact (st.push_keeps _).trans (ih ..)
    · exact .refl st

theorem takeSlots_keeps (xs : List (BitVec 16)) (l : List Slot) (st : Store) : st.Keeps (takeSlots xs l st).2 := by
  induction l generalizing st with
  | nil => exact .refl st
  | cons sl l ih =>
    unfold takeSlots
    dsimp only
    split
    · exact (fillPages_keeps ..).trans (ih _)
    · exact ih st

/-- The instant leaves every slot of its number, level and kind. -/
theorem takeSlots_stand (xs : List (BitVec 16)) (l : List Slot) (st : Store) :
    (takeSlots xs l st).1.map (fun x => (x.num, x.level, x.kind)) = l.map fun x => (x.num, x.level, x.kind) := by
  induction l generalizing st with
  | nil => rfl
  | cons sl l ih =>
    unfold takeSlots
    dsimp only
    rw [List.map_cons, List.map_cons, ih]
    split
    · obtain ⟨hn, hl, hk⟩ := fillPages_slot 1 { sl with post := sl.post + 1, buf := sl.buf ++ instantBytes xs } st
      rw [Slot.take, hn, hl, hk]
    · rfl

/-- Slots of the same numbers, levels and kinds are as sound. -/
theorem slotsOk_congr {l l' : List Slot}
    (h : l'.map (fun x => (x.num, x.level, x.kind)) = l.map fun x => (x.num, x.level, x.kind)) (hl : slotsOk l) : slotsOk l' := by
  have hnum : l'.map (·.num) = l.map (·.num) := by
    have := congrArg (List.map Prod.fst) h
    rwa [List.map_map, List.map_map] at this
  refine ⟨hnum ▸ hl.1, fun x hx => ?_⟩
  have hmem : (x.num, x.level, x.kind) ∈ l.map fun x => (x.num, x.level, x.kind) := h ▸ List.mem_map_of_mem hx
  obtain ⟨y, hy, hxy⟩ := List.mem_map.1 hmem
  simp only [Prod.mk.injEq] at hxy
  obtain ⟨hn, hl', hk⟩ := hxy
  rw [← hn, ← hl', ← hk]
  exact hl.2 y hy

theorem pushBounded_length {α : Type} {cap : Nat} {l : List α} (hcap : 0 < cap) (a : α) :
    (pushBounded cap l a).length ≤ cap := by
  unfold pushBounded
  split
  · simp only [List.length_append, List.length_singleton]
    omega
  · simp only [List.length_append, List.length_drop, List.length_singleton]
    omega

theorem captureInstant_keeps (s : State) (xs : List (BitVec 16)) : s.Keeps (s.captureInstant xs) :=
  (State.Keeps.withCap s (c := ⟨_, _⟩) (fun _ => pushBounded_length (by omega) xs)
    (slotsOk_congr (takeSlots_stand xs _ s.store))).setStore (takeSlots_keeps xs s.cap.slots s.store)

/-! ## Seals of captures (R80, R94, R95) -/

theorem closingWrites_keeps (sl : Slot) (n : Nat) (st : Store) : st.Keeps (sl.closingWrites n st) := by
  unfold Slot.closingWrites
  split
  · exact (st.closing_keeps ..).trans (Store.writes_keeps ..)
  · exact st.push_keeps _

theorem truncatedWrites_keeps (sl : Slot) (n : Nat) (st : Store) : st.Keeps (sl.truncatedWrites n st) := by
  unfold Slot.truncatedWrites
  dsimp only
  refine .trans ?_ (Store.push_keeps _ _)
  refine .trans ?_ (Store.release_keeps ..)
  split
  · exact .refl st
  · exact st.push_keeps _

/-- The slot of one number is changed to another of its number. -/
theorem slotsOk_set {l : List Slot} {n : Nat} {y : Slot} (hn : y.num = n) (hl : y.levelOk) (h : slotsOk l) :
    slotsOk (l.map fun x => if x.num == n then y else x) := by
  refine slotsOk_map (fun x _ => ?_) (fun x _ hx => ?_) h
  · split
    · rename_i he
      exact hn.trans (beq_iff_eq.1 he).symm
    · rfl
  · split
    · exact hl
    · exact hx

/-- The seals of captures change the slots and the store alone. -/
theorem foldl_sealSlot_eq {o : Slot → CapOutcome} (l : List Slot) (s : State) :
    ∃ slots st, l.foldl (fun s sl => s.sealSlot sl (o sl)) s = { s with cap := { s.cap with slots := slots }, store := st } ∧
      s.store.Keeps st ∧ (slotsOk s.cap.slots → (∀ sl ∈ l, sl.levelOk) → slotsOk slots) := by
  induction l generalizing s with
  | nil => exact ⟨_, _, rfl, .refl _, fun h _ => h⟩
  | cons sl l ih =>
    obtain ⟨slots, st, heq, hkeeps, hslots⟩ := ih (s.sealSlot sl (o sl))
    refine ⟨slots, st, heq, (closingWrites_keeps ..).trans hkeeps, fun h hl => ?_⟩
    obtain ⟨hsl, hl⟩ := List.forall_mem_cons.1 hl
    exact hslots (slotsOk_set rfl (by exact hsl) h) hl

theorem sealCaptures_keeps (s : State) (o : CapOutcome) : s.Keeps (s.sealCaptures o) := by
  obtain ⟨slots, st, heq, hkeeps, hslots⟩ := foldl_sealSlot_eq (o := fun sl => if sl.running then o else .complete)
    (s.cap.slots.filter fun sl => !sl.closing) s
  rw [State.sealCaptures, heq]
  refine (State.Keeps.withStore s hkeeps).setSlots fun h => hslots h fun sl hsl => ?_
  exact (h.2 sl (List.mem_of_mem_filter hsl)).2.2

theorem sealSlot_keeps (s : State) {sl : Slot} (hsl : sl ∈ s.cap.slots) (o : CapOutcome) : s.Keeps (s.sealSlot sl o) := by
  obtain ⟨slots, st, heq, hkeeps, hslots⟩ := foldl_sealSlot_eq (o := fun _ => o) [sl] s
  rw [show s.sealSlot sl o = _ from heq]
  refine (State.Keeps.withStore s hkeeps).setSlots fun h => hslots h fun x hx => ?_
  rw [List.mem_singleton.1 hx]
  exact (h.2 sl hsl).2.2

theorem truncate_keeps (s : State) (sl : Slot) : s.Keeps (s.truncate sl) := by
  have hctr : s.ctr.ok → { s.ctr with capturesTruncated := satAdd s.ctr.capturesTruncated 1 }.ok := fun h => by
    rw [Counters.ok_iff] at *
    simp [satAdd_le, h]
  have hstore := State.Keeps.withStore s (truncatedWrites_keeps (sl.sealed .truncated s.provisional) s.channels s.store)
  exact (hstore.setSlots fun h => slotsOk_sublist h List.filter_sublist).setCtr hctr

/-! ## Openings and conversions (R79 to R86, R91) -/

theorem freeSlot_bounds {l : List Slot} {n : Nat} (h : freeSlot l = some n) : 1 ≤ n ∧ n ≤ 3 := by
  have := List.mem_of_find?_eq_some h
  simp only [List.mem_cons, List.not_mem_nil, or_false] at this
  omega

theorem preemptable_mem {l : List Slot} {level : Nat} {sl : Slot} (h : preemptable l level = some sl) : sl ∈ l := by
  have := List.mem_of_head? h
  rw [mem_sortBy, mem_sortBy] at this
  exact List.mem_of_mem_filter this

/-- A slot found for a request has a number of the three, and the one preempted there is gone. -/
theorem findSlot_keeps {s t : State} {level n : Nat} (h : s.findSlot level = some (t, n)) :
    s.Keeps t ∧ (slotsOk s.cap.slots → 1 ≤ n ∧ n ≤ 3) := by
  unfold State.findSlot at h
  split at h
  · cases h
    exact ⟨.refl _, fun _ => freeSlot_bounds ‹_›⟩
  · simp only [Option.map_eq_some_iff, Prod.mk.injEq] at h
    obtain ⟨sl, hsl, rfl, rfl⟩ := h
    exact ⟨truncate_keeps s sl, fun hs => ⟨(hs.2 sl (preemptable_mem hsl)).1, (hs.2 sl (preemptable_mem hsl)).2.1⟩⟩

theorem openCapture_keeps (s : State) {q : CapRequest} (hl : q.level ≤ 3) (hc : q.kind = .companion → q.level = 0) :
    s.Keeps (s.openCapture q).1 := by
  unfold State.openCapture
  split
  · exact .refl s
  · rename_i t n hfind
    obtain ⟨hk, hn⟩ := findSlot_keeps hfind
    dsimp only
    split
    · exact hk.trans (create_keeps ..)
    · rename_i r hr
      have hcreate := hk.trans (create_keeps t { tag := .waveform, capKind := some q.kind, noteId := none,
                                                 pages := plannedPages t.cap.ring.length t.channels })
      generalize t.create _ = made at hcreate hr ⊢
      obtain ⟨hnum, hlevel, hkind⟩ := fillPages_slot 6 (made.1.newSlot q n r)
        (made.1.store.push (.page r 0 ((made.1.newSlot q n r).headerBytes made.1.channels) .more))
      have hstore := hcreate.setStore ((made.1.store.push_keeps _).trans (fillPages_keeps 6 (made.1.newSlot q n r)
        (made.1.store.push (.page r 0 ((made.1.newSlot q n r).headerBytes made.1.channels) .more))))
      refine hstore.setSlots fun hs => slotsOk_put (hcreate.slots hs) ?_ ?_
      · rw [hnum]
        exact hn hs
      · unfold Slot.levelOk
        rw [hlevel, hkind]
        exact ⟨hl, hc⟩

theorem convert_keeps (s : State) (sl : Slot) (seq : Nat) {level : Nat} (hl : level ≤ 3) (start : Nat) :
    s.Keeps (s.convert sl seq level start) := by
  have hentry := State.Keeps.withStore s
    ((s.store.update_keeps sl.record (f := fun e => { e with img := { e.img with capKind := some .own } })
      fun e => ⟨rfl, rfl, rfl, id, .refl _⟩).trans (Store.writeEntryOf_keeps _ sl.record))
  exact State.Keeps.setSlots (t := { s with store := (s.convert sl seq level start).store })
    (hentry.setStore (Store.push_keeps _ _)) (slotsOk_set rfl ⟨hl, nofun⟩)

theorem requestFresh_keeps (s : State) (seq : Nat) {level : Nat} (hl : level ≤ 3) (start : Nat) :
    s.Keeps (s.requestFresh seq level start).1 := by
  unfold State.requestFresh
  dsimp only
  split
  · exact openCapture_keeps s hl (by simp)
  · refine (openCapture_keeps s hl (by simp)).setCtr fun h => ?_
    rw [Counters.ok_iff] at *
    simp [satAdd_le, h]

theorem requestOwn_keeps (s : State) (seq : Nat) {level : Nat} (hl : level ≤ 3) (start : Nat) :
    s.Keeps (s.requestOwn seq level start).1 := by
  unfold State.requestOwn
  split
  · split
    · exact convert_keeps s _ seq hl start
    · exact requestFresh_keeps s seq hl start
  · exact requestFresh_keeps s seq hl start

theorem raiseLevel_keeps (s : State) (seq : Nat) {level : Nat} (hl : level ≤ 3) : s.Keeps (s.raiseLevel seq level) := by
  refine (State.Keeps.refl s).setSlots (slotsOk_map (fun x _ => ?_) (fun x _ hx => ?_))
  · split <;> rfl
  · split
    · rename_i hcond
      simp only [Bool.and_eq_true, beq_iff_eq] at hcond
      exact ⟨hl, by simp [hcond]⟩
    · exact hx

theorem requestCompanion_keeps (s : State) (station seq start : Nat) : s.Keeps (s.requestCompanion station seq start) := by
  unfold State.requestCompanion
  dsimp only
  split
  all_goals
    refine (openCapture_keeps s (Nat.zero_le 3) fun _ => rfl).setCtr fun h => ?_
    rw [Counters.ok_iff] at *
    simp [satAdd_le, h]

/-! ## The event unit (R59 to R71, R89) -/

theorem EventKind.code_le (k : EventKind) : k.code ≤ 3 := by
  cases k <;> decide

theorem withEv_keeps (s : State) (ev : EventUnit) : s.Keeps { s with ev := ev } := .free s _ _ _ _ _ _ _ ev _

theorem offer_keeps (s : State) (pair : Nat × Nat) : s.Keeps (s.offer pair) := by
  unfold State.offer
  split
  · exact .refl s
  · split
    · exact .refl s
    · split
      · exact withEv_keeps ..
      · refine (State.Keeps.refl s).setCtr fun h => ?_
        rw [Counters.ok_iff] at *
        simp [satAdd_le, h]

theorem offers_keeps (s : State) (l : List Slot) : s.Keeps (l.foldl (fun s sl => s.offer (sl.station, sl.seq)) s) :=
  foldl_keeps (fun s sl => offer_keeps s (sl.station, sl.seq)) l s

theorem setLink_keeps (s : State) (link : Option Nat) : s.Keeps (s.setLink link) := withEv_keeps ..

theorem openEvent_keeps (s : State) (r : BoundaryReport) (tb : TbState) (k : EventKind) : s.Keeps (s.openEvent r tb k) := by
  have hctr : s.ctr.ok → { s.ctr with events := satAdd s.ctr.events 1 }.ok := fun h => by
    rw [Counters.ok_iff] at *
    simp [satAdd_le, h]
  have hopen := (withEv_keeps s { event := some ((blankEvent s.ev.seq r.time tb k s.provisional).gather r k),
                                  seq := nextSeq s.ev.seq }).setCtr hctr
  unfold State.openEvent
  dsimp only
  split
  · exact .trans (.trans (.trans (.trans hopen (offers_keeps _ _)) (requestOwn_keeps _ _ k.code_le _)) (setLink_keeps _ _))
      (send_keeps _ _ _)
  · exact .trans (.trans (.trans hopen (offers_keeps _ _)) (requestOwn_keeps _ _ k.code_le _)) (setLink_keeps _ _)

theorem sealEvent_keeps (s : State) (outcome stop : Nat) : s.Keeps (s.sealEvent outcome stop) := by
  unfold State.sealEvent
  split
  · exact .refl s
  · dsimp only
    split
    · exact (withEv_keeps ..).trans (storeOnePage_keeps ..)
    · refine ((withEv_keeps ..).trans (storeOnePage_keeps ..)).setCtr fun h => ?_
      rw [Counters.ok_iff] at *
      simp [satAdd_le, h]

theorem takeReport_keeps (s : State) (r : BoundaryReport) (tb : TbState) : s.Keeps (s.takeReport r tb) := by
  unfold State.takeReport
  split
  · exact .refl s
  · exact openEvent_keeps ..
  · exact sealEvent_keeps ..
  · dsimp only
    split
    · exact (withEv_keeps ..).trans (raiseLevel_keeps _ _ (EventKind.code_le _))
    · exact withEv_keeps ..

theorem takeTrigger_keeps (s : State) (n : Nat) (f : TriggerFrame) : s.Keeps (s.takeTrigger n f) := by
  unfold State.takeTrigger
  split
  · split
    · exact offer_keeps ..
    · split
      · exact .refl s
      · exact requestCompanion_keeps ..
  · exact .refl s

theorem hearTrigger_keeps (s : State) (rx : Rx) (f : TriggerFrame) : s.Keeps (s.hearTrigger rx f) :=
  receive_keeps s rx none fun x _ => takeTrigger_keeps x ..

theorem hearBetween_keeps (s : State) (b : Option (Rx × TriggerFrame)) : s.Keeps (s.hearBetween b) := by
  unfold State.hearBetween
  split
  · exact hearTrigger_keeps ..
  · exact .refl s

/-! ## The timebase (R29, R31) -/

theorem Timebase.indexReset_history (tb : Timebase) : tb.indexReset.1.history = tb.history := rfl

theorem lastOf_length_le {α : Type} (n : Nat) (l : List α) : (lastOf n l).length ≤ l.length := by
  simp [lastOf]

theorem Timebase.interval_history (tb : Timebase) (hz i : Nat) : (tb.interval hz i).1.history.length ≤ tb.history.length := by
  unfold Timebase.interval
  repeat' split
  all_goals simp [Timebase.lock, Timebase.holdover, Timebase.indexReset, lastOf]

theorem Timebase.crossing_history (tb : Timebase) (hz t : Nat) (h : tb.history.length ≤ 8) : (tb.crossing hz t).1.history.length ≤ 8 := by
  unfold Timebase.crossing
  dsimp only
  split
  · exact (Timebase.interval_history ..).trans (pushBounded_length (by omega) _)
  · split <;> exact h

theorem Timebase.watch_history (tb : Timebase) (hz un t : Nat) (xs : List Int) (h : tb.history.length ≤ 8) :
    (tb.watch hz un t xs).1.history.length ≤ 8 := by
  unfold Timebase.watch
  dsimp only
  split
  · split
    · exact Timebase.crossing_history _ _ _ h
    · exact h
  · exact h

theorem Timebase.reference_history (tb : Timebase) (l : List ChState) (h : tb.history.length ≤ 8) :
    (tb.reference l).1.history.length ≤ 8 := by
  unfold Timebase.reference
  split
  · split
    · dsimp only
      split <;> exact Nat.zero_le 8
    · exact h
  · exact h

@[simp] theorem Timebase.choose_history (tb : Timebase) (hz : Nat) (c : Option (Nat × Nat)) : (tb.choose hz c).history = tb.history := by
  cases c <;> rfl

theorem choosePeer_keeps (s : State) : s.Keeps s.choosePeer := .withTb s fun h => by simpa using h

/-! ## The harmonic analyser (R100 to R116) -/

theorem withHar_keeps (s : State) (har : Harmonic) : s.Keeps { s with har := har } := .free s _ _ _ _ _ _ _ _ har

theorem sealInterval_keeps (s : State) (supply : Bool) : s.Keeps (s.sealInterval supply) := by
  have hctr : s.ctr.ok → { s.ctr with intervalsSealed := satAdd s.ctr.intervalsSealed 1 }.ok := fun h => by
    rw [Counters.ok_iff] at *
    simp [satAdd_le, h]
  unfold State.sealInterval
  split
  · exact .refl s
  · have hseal := (withHar_keeps s { s.har with accum := none }).setCtr hctr
    dsimp only
    split
    · exact hseal.trans (storeOnePage_keeps ..)
    · refine (hseal.trans (storeOnePage_keeps ..)).setCtr fun h => ?_
      rw [Counters.ok_iff] at *
      simp [satAdd_le, h]

theorem settle_keeps (s : State) (b : Block) : s.Keeps (s.settle b) := by
  have hctr : s.ctr.ok → (if b.tbMark then { s.ctr with blocksTimebase := satAdd s.ctr.blocksTimebase 1 }
      else if b.evMark then { s.ctr with blocksEvent := satAdd s.ctr.blocksEvent 1 } else s.ctr).ok := fun h => by
    rw [Counters.ok_iff] at h
    split
    · simp [Counters.ok_iff, satAdd_le, h]
    · split <;> simp [Counters.ok_iff, satAdd_le, h]
  have hcount := (withHar_keeps s { s.har with settling := none, accum := some ((s.har.accum.getD (Accum.begin b)).count b) }).setCtr hctr
  unfold State.settle
  dsimp only
  split
  · exact hcount.trans (sealInterval_keeps ..)
  · exact hcount

theorem trySettle_keeps (s : State) : s.Keeps s.trySettle := by
  unfold State.trySettle
  split
  · split
    · exact settle_keeps ..
    · exact .refl s
  · exact .refl s

theorem forceSettle_keeps (s : State) : s.Keeps s.forceSettle := by
  unfold State.forceSettle
  split
  · exact settle_keeps ..
  · exact .refl s

theorem fillBlock_keeps (s : State) : s.Keeps s.fillBlock := by
  unfold State.fillBlock
  split
  · split
    · exact (forceSettle_keeps s).trans (withHar_keeps ..)
    · exact .refl s
  · exact .refl s

theorem analyse_keeps (s : State) (xs : List Int) (index : Nat) (tb : TbState) : s.Keeps (s.analyse xs index tb) :=
  (fillBlock_keeps s).trans (withHar_keeps ..)

theorem markEvent_keeps (s : State) : s.Keeps s.markEvent := by
  unfold State.markEvent
  split
  · exact withHar_keeps ..
  · exact .refl s

theorem stopHarmonic_keeps (s : State) (supply : Bool) : s.Keeps (s.stopHarmonic supply) :=
  (withHar_keeps ..).trans (sealInterval_keeps ..)

end Sys2Proof.Machine
end

section
/-!
PROOF. What the printer service and the report engine keep, message by message (chapter 9).
-/

namespace Sys2Proof.Machine

/-! ## Messages of the exchange -/

@[simp] theorem post_prn (s : State) (p : Party) (b : Bool) (m : Payload) : (s.post p b m).1.prn = s.prn := by cases p <;> rfl

@[simp] theorem post_rep (s : State) (p : Party) (b : Bool) (m : Payload) : (s.post p b m).1.rep = s.rep := by cases p <;> rfl

@[simp] theorem post_sup (s : State) (p : Party) (b : Bool) (m : Payload) : (s.post p b m).1.sup = s.sup := by cases p <;> rfl

theorem post_keeps (s : State) (p : Party) (b : Bool) (m : Payload) : s.Keeps (s.post p b m).1 := by
  cases p with
  | own => exact .refl s
  | station n => exact send_keeps ..

/-! ## The printer service (R173 to R178) -/

theorem withPrn_keeps {s : State} {p : Printer} (h : s.prn.ok → p.ok) : s.Keeps { s with prn := p } := .withPrn s h

/-- With fewer entries in the queue. -/
theorem Printer.ok_of_sublist {p : Printer} (h : p.ok) {q : List QueueEntry} (hq : q.Sublist p.queue) : { p with queue := q }.ok := by
  obtain ⟨h8, h2, hnot, hidle, hone⟩ := h
  exact ⟨hq.length_le.trans h8, h2, fun hs => ⟨fun e he => (hnot hs).1 e (hq.subset he), (hnot hs).2⟩, hidle,
    fun e he e' he' => hone e (hq.subset he) e' (hq.subset he')⟩

theorem Printer.ok_without {p : Printer} (h : p.ok) (o : Party) (n : Nat) : (p.without o n).ok :=
  Printer.ok_of_sublist h List.filter_sublist

/-- What the law of the printer service does not speak of may change. -/
theorem Printer.ok_free {p : Printer} (h : p.ok) (lastTaken lines : Nat) (grants : List Party) (lastEnded : Option EndedJob)
    (inactivity goTimer : Option Nat) (port : List Byte) :
    { p with lastTaken := lastTaken, lines := lines, grants := grants, lastEnded := lastEnded, inactivity := inactivity,
             goTimer := goTimer, port := port }.ok := h

/-- With no block pending. -/
theorem Printer.ok_unpend {p : Printer} (h : p.ok) {w : Option (Nat × List Byte)} (hw : p.waiting = none → w = none) :
    { p with waiting := w }.ok := by
  obtain ⟨h8, h2, hnot, hidle, hone⟩ := h
  exact ⟨h8, h2, fun hs => ⟨(hnot hs).1, hw (hnot hs).2⟩, hidle, hone⟩

/-- The service in which an entry is PRINTING is in PRINTING. -/
theorem Printer.state_of_printing {p : Printer} (h : p.ok) {e : QueueEntry} (he : e ∈ p.queue) (hp : e.printing = true) :
    p.state = .printing := by
  obtain ⟨-, -, hnot, -, -⟩ := h
  by_contra hs
  simp [(hnot hs).1 e he] at hp

theorem Printer.printing_mem {p : Printer} {e : QueueEntry} (h : p.printing = some e) : e ∈ p.queue ∧ e.printing = true :=
  ⟨List.mem_of_find?_eq_some h, List.find?_some (p := QueueEntry.printing) h⟩

theorem chooseJob_keeps (s : State) : s.Keeps s.chooseJob.1 := by
  unfold State.chooseJob
  split
  · rename_i hc
    have hidle : s.prn.state = .idle := by simp_all
    split
    · rename_i e _
      refine .trans (withPrn_keeps fun h => ?_) (post_keeps ..)
      obtain ⟨h8, -, hnot, hbuf, -⟩ := h
      have hwait := (hnot (by simp [hidle])).1
      obtain ⟨hempty, -⟩ := hbuf hidle
      refine ⟨by simpa using h8, by simp [hempty], by simp, by simp, ?_⟩
      have hthis : ∀ x ∈ s.prn.queue.map (fun x => if x.origin == e.origin && x.job == e.job then { x with printing := true } else x),
          x.printing = true → x.origin = e.origin ∧ x.job = e.job := by
        refine List.forall_mem_map.2 fun x hx hp => ?_
        split at hp
        · rename_i hxe
          rw [if_pos hxe]
          simpa using hxe
        · simp [hwait x hx] at hp
      intro x hx y hy hpx hpy
      obtain ⟨hxo, hxj⟩ := hthis x hx hpx
      obtain ⟨hyo, hyj⟩ := hthis y hy hpy
      exact ⟨hxo.trans hyo.symm, hxj.trans hyj.symm⟩
    · exact .refl s
  · exact .refl s

theorem takeLine_keeps {s : State} {e : QueueEntry} (he : e ∈ s.prn.queue) (hp : e.printing = true) (hroom : s.prn.buffer.length < 2)
    (k : Nat) (line : List Byte) : s.Keeps (s.takeLine e k line).1 := by
  refine .trans (withPrn_keeps fun h => ?_) (post_keeps ..)
  have hstate := Printer.state_of_printing h he hp
  obtain ⟨h8, -, -, -, hone⟩ := h
  exact ⟨h8, by simpa using hroom, by simp [hstate], by simp [hstate], hone⟩

theorem fillBuffer_keeps (s : State) : s.Keeps s.fillBuffer.1 := by
  unfold State.fillBuffer
  split
  · rename_i hroom
    split
    · rename_i hprinting
      obtain ⟨he, hp⟩ := Printer.printing_mem hprinting
      exact takeLine_keeps he hp hroom ..
    · split
      · rename_i t ht
        refine withPrn_keeps fun h => ?_
        obtain ⟨h8, -, hnot, hidle, hone⟩ := h
        exact ⟨h8, by simpa using hroom, hnot, fun hs => by simp [hidle hs] at ht, hone⟩
      · exact .refl s
  · exact .refl s

/-- The PRINTING entry leaves the queue, and none is left PRINTING. -/
theorem endPrinting_keeps {s : State} {e : QueueEntry} (he : e ∈ s.prn.queue) (hp : e.printing = true) (ended : Bool) :
    s.Keeps (s.endPrinting e ended).1 := by
  refine .trans (withPrn_keeps fun h => ?_) (fillBuffer_keeps _)
  obtain ⟨h8, h2, -, -, hone⟩ := Printer.ok_without h e.origin e.job
  have hnone : ∀ x ∈ (s.prn.without e.origin e.job).queue, x.printing = false := fun x hx => by
    obtain ⟨hx, hne⟩ := List.mem_filter.1 hx
    by_contra hxp
    obtain ⟨-, -, -, -, hone⟩ := h
    obtain ⟨ho, hj⟩ := hone x hx e he (by simpa using hxp) hp
    simp [ho, hj] at hne
  exact ⟨h8, h2, fun _ => ⟨hnone, rfl⟩, by simp, hone⟩

theorem appendAsk_keeps (s : State) (o : Party) (n : Nat) (k : ReportKind) (u : Bool) : s.Keeps (s.appendAsk o n k u).1 := by
  unfold State.appendAsk
  split
  · exact post_keeps ..
  · refine .trans (.trans (withPrn_keeps fun h => ?_) (post_keeps ..)) (chooseJob_keeps _)
    obtain ⟨h8, h2, hnot, hidle, hone⟩ := h
    refine ⟨by simp; omega, h2, fun hs => ⟨fun e he => ?_, (hnot hs).2⟩, hidle, fun e he e' he' hp hp' => ?_⟩
    · rcases List.mem_append.1 he with he | he
      · exact (hnot hs).1 e he
      · simp [List.mem_singleton.1 he]
    · rcases List.mem_append.1 he with he | he
      · rcases List.mem_append.1 he' with he' | he'
        · exact hone e he e' he' hp hp'
        · simp [List.mem_singleton.1 he'] at hp'
      · simp [List.mem_singleton.1 he] at hp

theorem ask_keeps (s : State) (o : Party) (n : Nat) (k : ReportKind) (u : Bool) : s.Keeps (s.ask o n k u).1 := by
  unfold State.ask
  split
  · split
    · exact post_keeps ..
    · split
      · exact post_keeps ..
      · exact .trans (withPrn_keeps fun h => Printer.ok_without h ..) (appendAsk_keeps ..)
  · exact appendAsk_keeps ..

theorem nextBlock_keeps {s : State} {e : QueueEntry} (he : e ∈ s.prn.queue) (hp : e.printing = true) (k mark : Nat)
    (text : List Byte) : s.Keeps (s.nextBlock e k mark text).1 := by
  unfold State.nextBlock
  split
  · exact .trans (withPrn_keeps fun h => Printer.ok_unpend h fun hw => by simp [hw]) (post_keeps ..)
  · split
    · refine .trans (.trans (withPrn_keeps (s := s) ?_) (endPrinting_keeps ?_ hp true)) (post_keeps ..)
      · exact id
      · exact he
    · split
      · exact takeLine_keeps he hp ‹_› ..
      · refine withPrn_keeps fun h => ?_
        have hstate := Printer.state_of_printing h he hp
        obtain ⟨h8, h2, -, -, hone⟩ := h
        exact ⟨h8, h2, by simp [hstate], by simp [hstate], hone⟩

theorem jobBlock_keeps {s : State} {e : QueueEntry} (he : e ∈ s.prn.queue) (hp : e.printing = true) (k mark : Nat)
    (text : List Byte) : s.Keeps (s.jobBlock e k mark text).1 := by
  have htimers : s.Keeps { s with prn := { s.prn with inactivity := some (s.inMs 5000), goTimer := none } } := withPrn_keeps id
  refine htimers.trans ?_
  dsimp only [State.jobBlock]
  split
  · exact post_keeps ..
  · split
    · refine nextBlock_keeps ?_ hp ..
      exact he
    · exact .trans (post_keeps ..) (endPrinting_keeps (by simpa using he) hp false)

theorem strayBlock_keeps (s : State) (o : Party) (n k mark : Nat) : s.Keeps (s.strayBlock o n k mark).1 := by
  unfold State.strayBlock
  split <;> exact post_keeps ..

theorem block_keeps (s : State) (o : Party) (n k mark : Nat) (text : List Byte) : s.Keeps (s.block o n k mark text).1 := by
  unfold State.block
  split
  · exact .refl s
  · split
    · rename_i hprinting
      obtain ⟨he, hp⟩ := Printer.printing_mem hprinting
      split
      · exact jobBlock_keeps he hp ..
      · exact strayBlock_keeps ..
    · exact strayBlock_keeps ..

theorem dropped_keeps (s : State) (o : Party) (n : Nat) : s.Keeps (s.dropped o n).1 := by
  unfold State.dropped
  split
  · rename_i e he
    split
    · exact endPrinting_keeps (List.mem_of_find?_eq_some he) ‹_› false
    · exact withPrn_keeps fun h => Printer.ok_without h ..
  · exact .refl s

theorem serviceTake_keeps (s : State) (o : Party) (m : Payload) : s.Keeps (s.serviceTake o m).1 := by
  unfold State.serviceTake
  split
  · exact .refl s
  · split
    · split
      · exact ask_keeps ..
      · exact .refl s
    · exact block_keeps ..
    · exact dropped_keeps ..
    · exact .refl s

/-! ## The jobs of the report engine (R156) -/

/-- The table holds a job in the entry of `j`, with the records of `j`. -/
def State.holds (s : State) (j : Job) : Prop := ∃ x ∈ s.rep.jobs, x.entry = j.entry ∧ x.records = j.records

theorem holds_of_mem {s : State} {j : Job} (h : j ∈ s.rep.jobs) : s.holds j := ⟨j, h, rfl, rfl⟩

theorem jobOf_holds {s : State} {p : Party} {n : Nat} {j : Job} (h : s.jobOf p n = some j) : s.holds j :=
  holds_of_mem (List.mem_of_find?_eq_some h)

theorem jobAt_holds {s : State} {n : Nat} {j : Job} (h : s.jobAt n = some j) : s.holds j :=
  holds_of_mem (List.mem_of_find?_eq_some h)

/-- The law of pins reads of each job its entry and its records. -/
theorem Store.pinsOk_congr {st : Store} {l l' : List Job}
    (h : l'.map (fun j => (j.entry, j.records)) = l.map fun j => (j.entry, j.records)) (hp : st.pinsOk l) : st.pinsOk l' := by
  obtain ⟨hi, hj, hl, hs, hn⟩ := hp
  have hentry : l'.map (·.entry) = l.map (·.entry) := by
    have := congrArg (List.map Prod.fst) h
    rwa [List.map_map, List.map_map] at this
  have hrecords : l'.map (·.records) = l.map (·.records) := by
    have := congrArg (List.map Prod.snd) h
    rwa [List.map_map, List.map_map] at this
  refine ⟨hi, hentry ▸ hj, hl, fun j hj r hr => ?_, fun e he => ?_⟩
  · obtain ⟨x, hx, hxj⟩ := List.mem_map.1 (hrecords ▸ List.mem_map_of_mem (f := Job.records) hj)
    exact hs x hx r (by rwa [hxj])
  · rw [hn e he]
    have hcount : ∀ l : List Job, (l.map fun j => j.records.count e.img.record) = (l.map (·.records)).map fun r => r.count e.img.record :=
      fun l => by rw [List.map_map, Function.comp_def]
    rw [hcount l, hcount l', hrecords]

theorem setJob_keeps {s : State} {j : Job} (h : s.holds j) : s.Keeps (s.setJob j) := by
  obtain ⟨x, hx, hentry, hrecords⟩ := h
  refine ⟨rfl, id, id, id, id, fun hb => ?_, id, id, id, fun hp => ?_⟩
  · exact ⟨by simpa [State.setJob] using hb.1, hb.2⟩
  · obtain ⟨ho, hp⟩ := (pinsOk_iff s).1 hp
    refine (pinsOk_iff _).2 ⟨fun h => by simp [State.setJob, ho h], Store.pinsOk_congr ?_ hp⟩
    obtain ⟨-, hn, -⟩ := hp
    rw [State.setJob, List.map_map]
    refine List.map_congr_left fun y hy => ?_
    simp only [Function.comp_apply, beq_iff_eq]
    split
    · rename_i he
      have hyx : y = x := List.inj_on_of_nodup_map hn hy hx (he.trans hentry.symm)
      rw [hyx, hentry, hrecords]
    · rfl

theorem holds_setJob {s : State} {j k : Job} (h : s.holds k) (hj : k.entry = j.entry → k.records = j.records) :
    (s.setJob j).holds k := by
  obtain ⟨x, hx, hentry, hrecords⟩ := h
  refine ⟨_, List.mem_map_of_mem hx, ?_⟩
  split
  · rename_i he
    have hkj : k.entry = j.entry := hentry ▸ beq_iff_eq.1 he
    exact ⟨hkj.symm, (hj hkj).symm⟩
  · exact ⟨hentry, hrecords⟩

theorem jobEnded_ok {c : Counters} (h : c.ok) (e : JobEnd) : (c.jobEnded e).ok := by
  rw [Counters.ok_iff] at *
  cases e <;> simp [Counters.jobEnded, satAdd_le, h]

theorem offerWatermark_keeps (s : State) (r : Nat) : s.Keeps (s.offerWatermark r) := by
  unfold State.offerWatermark
  split
  · exact (State.Keeps.withHdr s (hdr := { s.hdr with watermark := r }) id).trans (writeHeader_keeps _)
  · exact .refl s

/-- A job leaves the table; that its pins go with it is another matter. -/
theorem endJob_rest (s : State) (j : Job) (e : JobEnd) : s.KeepsRest (s.endJob j e) := by
  have hstore : s.KeepsRest { s with store := j.records.foldl Store.unpin s.store } := by
    rw [foldl_unpin_eq]
    exact ⟨rfl, id, id, id, id, id, id, id, Store.repin_directoryOk _ _⟩
  have hend : ∀ x : State, x.KeepsRest { x with
      ctr := x.ctr.jobEnded e, rep := { x.rep with jobs := x.rep.jobs.filter fun y => y.entry != j.entry } } := fun x =>
    ⟨rfl, id, id, id, id, fun hb => ⟨(List.length_filter_le ..).trans hb.1, hb.2⟩, fun h => jobEnded_ok h e, id, id⟩
  unfold State.endJob
  dsimp only
  split
  · split
    · exact (hstore.trans (offerWatermark_keeps _ _).rest).trans (hend _)
    · exact hstore.trans (hend _)
  · exact hstore.trans (hend _)

@[simp] theorem offerWatermark_rep (s : State) (r : Nat) : (s.offerWatermark r).rep = s.rep := by
  unfold State.offerWatermark
  split <;> rfl

@[simp] theorem offerWatermark_sup (s : State) (r : Nat) : (s.offerWatermark r).sup = s.sup := by
  unfold State.offerWatermark
  split <;> rfl

@[simp] theorem endJob_jobs (s : State) (j : Job) (e : JobEnd) :
    (s.endJob j e).rep.jobs = s.rep.jobs.filter fun x => x.entry != j.entry := by
  unfold State.endJob
  dsimp only
  split
  · split <;> simp
  · rfl

@[simp] theorem endJob_sup (s : State) (j : Job) (e : JobEnd) : (s.endJob j e).sup = s.sup := by
  unfold State.endJob
  dsimp only
  split
  · split <;> simp
  · rfl

/-- The end of a job of the table takes its pins with it (R131, R164). -/
theorem endJob_pinsOk {s : State} {j : Job} (h : s.holds j) (e : JobEnd) (hp : s.pinsOk) : (s.endJob j e).pinsOk := by
  obtain ⟨ho, hp⟩ := (pinsOk_iff s).1 hp
  have hleave := Store.pinsOk_leave hp h
  have hstore : ∃ ws, (s.endJob j e).store = { j.records.foldl Store.unpin s.store with writes := ws } := by
    unfold State.endJob State.offerWatermark
    dsimp only
    split
    · split
      · split
        · exact ⟨_, rfl⟩
        · exact ⟨_, rfl⟩
      · exact ⟨_, rfl⟩
    · exact ⟨_, rfl⟩
  obtain ⟨ws, hws⟩ := hstore
  rw [pinsOk_iff, endJob_sup, endJob_jobs, hws]
  exact ⟨fun hopen => by simp [ho hopen], (Store.writes_keeps _ ws).pins _ hleave⟩

theorem endJob_keeps {s : State} {j : Job} (h : s.holds j) (e : JobEnd) : s.Keeps (s.endJob j e) :=
  (endJob_rest s j e).keeps (endJob_pinsOk h e)

/-- Jobs of different entries end one after another. -/
theorem foldl_endJob_pinsOk {e : JobEnd} (l : List Job) (s : State) (hl : (l.map (·.entry)).Nodup) (h : ∀ j ∈ l, s.holds j)
    (hp : s.pinsOk) : (l.foldl (fun s j => s.endJob j e) s).pinsOk := by
  induction l generalizing s with
  | nil => exact hp
  | cons j l ih =>
    obtain ⟨hj, hl⟩ := List.nodup_cons.1 hl
    refine ih _ hl (fun k hk => ?_) (endJob_pinsOk (h j List.mem_cons_self) e hp)
    obtain ⟨x, hx, hentry, hrecords⟩ := h k (List.mem_cons_of_mem _ hk)
    refine ⟨x, ?_, hentry, hrecords⟩
    have hne : x.entry ≠ j.entry := fun he => hj (List.mem_map.2 ⟨k, hk, hentry.symm.trans he⟩)
    simp [hx, hne]

theorem foldl_rest {α : Type} {f : State → α → State} (h : ∀ (s : State) a, s.KeepsRest (f s a)) (l : List α) (s : State) :
    s.KeepsRest (l.foldl f s) := by
  induction l generalizing s with
  | nil => exact .refl s
  | cons a l ih => exact (h s a).trans (ih _)

theorem loseQueued_keeps (s : State) (n : Nat) : s.Keeps (s.loseQueued n) := by
  refine (foldl_rest (fun s j => endJob_rest s j .abandoned) _ s).keeps fun hp => ?_
  have hn : (s.rep.jobs.map (·.entry)).Nodup := ((pinsOk_iff s).1 hp).2.2.1
  exact foldl_endJob_pinsOk _ s (hn.sublist (List.filter_sublist.map _)) (fun j hj => holds_of_mem (List.mem_of_mem_filter hj)) hp

/-! ## What the report engine takes (R160 to R165) -/

theorem sendAsk_keeps (s : State) (j : Job) : s.Keeps (s.sendAsk j).1 := post_keeps ..

theorem askPrinter_keeps {s : State} {j : Job} (h : s.holds j) : s.Keeps (s.askPrinter j).1 :=
  have hset := setJob_keeps (j := { j with askSends := j.askSends + 1, answerTimer := s.exchangeTimer j 1000 }) h
  hset.trans (sendAsk_keeps ..)

theorem sendBlock_keeps {s : State} {j : Job} (h : s.holds j) (b : CurBlock) (n : Nat) : s.Keeps (s.sendBlock j b n).1 :=
  have hset := setJob_keeps (s := s) (j := { j with
    current := some { b with sends := n }, answerTimer := s.exchangeTimer j 500, holdTimer := none }) h
  hset.trans (post_keeps ..)

theorem resendBlock_keeps {s : State} {j : Job} (h : s.holds j) (b : CurBlock) (n : Nat) : s.Keeps (s.resendBlock j b n).1 :=
  .trans (withdraw_keeps s _) (sendBlock_keeps (by exact h) b n)

theorem composeBlock_keeps {s : State} {j : Job} (h : s.holds j) : s.Keeps (s.composeBlock j).1 := by
  unfold State.composeBlock
  split
  all_goals exact sendBlock_keeps (by exact h) ..

theorem holds_post {s : State} {j : Job} (h : s.holds j) (p : Party) (b : Bool) (m : Payload) : (s.post p b m).1.holds j := by
  unfold State.holds
  rw [post_rep]
  exact h

theorem abandon_keeps {s : State} {j : Job} (h : s.holds j) : s.Keeps (s.abandon j).1 :=
  .trans (post_keeps ..) (endJob_keeps (holds_post h ..) .abandoned)

theorem goAhead_keeps {s : State} {j : Job} (h : s.holds j) : s.Keeps (s.goAhead j).1 := by
  unfold State.goAhead
  split
  · exact composeBlock_keeps (by exact h)
  · exact composeBlock_keeps (by exact h)
  · exact .refl s

theorem nowQueued_keeps {s : State} {j : Job} (h : s.holds j) : s.Keeps (s.nowQueued j) := by
  unfold State.nowQueued
  split
  · exact setJob_keeps (by exact h)
  · exact .refl s
  · exact .refl s

theorem nowRefused_keeps {s : State} {j : Job} (h : s.holds j) : s.Keeps (s.nowRefused j) := by
  unfold State.nowRefused
  split
  · exact endJob_keeps h _
  · exact endJob_keeps h _
  · exact .refl s

theorem blockTaken_keeps {s : State} {j : Job} (h : s.holds j) (k : Nat) : s.Keeps (s.blockTaken j k).1 := by
  unfold State.blockTaken
  split
  · split
    · dsimp only
      split
      · exact composeBlock_keeps (by exact h)
      · exact endJob_keeps (by exact h) _
    · exact .refl s
  · exact .refl s

theorem blockHeld_keeps {s : State} {j : Job} (h : s.holds j) (k : Nat) : s.Keeps (s.blockHeld j k) := by
  unfold State.blockHeld
  split
  · split
    · exact setJob_keeps (by exact h)
    · exact .refl s
  · exact .refl s

theorem originTake_keeps (s : State) (p : Party) (m : Payload) : s.Keeps (s.originTake p m).1 := by
  cases m with
  | queued n =>
    dsimp only [State.originTake]
    split
    · exact nowQueued_keeps (jobOf_holds ‹_›)
    · exact .refl s
  | refused n r =>
    dsimp only [State.originTake]
    split
    · exact nowRefused_keeps (jobOf_holds ‹_›)
    · exact .refl s
  | go n =>
    dsimp only [State.originTake]
    split
    · exact goAhead_keeps (jobOf_holds ‹_›)
    · exact post_keeps ..
  | taken n k =>
    dsimp only [State.originTake]
    split
    · exact blockTaken_keeps (jobOf_holds ‹_›) k
    · exact post_keeps ..
  | held n k =>
    dsimp only [State.originTake]
    split
    · exact blockHeld_keeps (jobOf_holds ‹_›) k
    · exact post_keeps ..
  | drop n =>
    dsimp only [State.originTake]
    split
    · exact endJob_keeps (jobOf_holds ‹_›) _
    · exact .refl s
  | _ => exact .refl s

/-! ## Hand-overs (R166) -/

theorem takeHand_keeps (s : State) (h : Hand) : s.Keeps (s.takeHand h).1 := by
  unfold State.takeHand
  split
  · exact serviceTake_keeps ..
  · exact originTake_keeps ..

theorem runHands_keeps (n : Nat) (s : State) (l : List Hand) : s.Keeps (runHands n s l) := by
  induction n generalizing s l with
  | zero => exact .refl s
  | succ n ih =>
    cases l with
    | nil => exact .refl s
    | cons h l => exact (takeHand_keeps s h).trans (ih ..)

/-- What keeps the laws before its hand-overs keeps them after. -/
theorem State.Keeps.run {s : State} {x : Exchange} (h : s.Keeps x.1) : s.Keeps x.run := h.trans (runHands_keeps ..)

/-! ## Print requests (R155 to R159) -/

theorem recordList_canPin {s : State} {k : ReportKind} {count r : Nat} (h : r ∈ (s.recordList k count).1) :
    s.store.canPin r = true := by
  simp only [State.recordList, mem_sortBy] at h
  exact (List.mem_filter.1 (List.mem_of_mem_take h)).2

/-- With an entry in use at most, a new job finds its entry free (R156). -/
theorem freeEntry {s : State} (h : s.rep.jobs.length < 2) :
    ∀ x ∈ s.rep.jobs, x.entry ≠ if (s.jobAt 0).isNone then 0 else 1 := by
  intro x hx
  cases hj : s.jobAt 0 with
  | none =>
    have := List.find?_eq_none.1 hj x hx
    simpa using this
  | some j =>
    have hmem := List.mem_of_find?_eq_some hj
    have hentry : j.entry = 0 := by simpa using List.find?_some hj
    obtain ⟨y, hy⟩ := List.length_eq_one_iff.1 (show s.rep.jobs.length = 1 by have := List.length_pos_of_mem hx; omega)
    rw [hy, List.mem_singleton] at hx hmem
    simp [hx, ← hmem, hentry]

theorem acceptPrint_keeps {s : State} (hopen : s.sup.opening = none) (hfew : s.rep.jobs.length < 2) (sender : Nat) (k : ReportKind)
    (count : Nat) (u : Bool) (p : Party) : s.Keeps (s.acceptPrint sender k count u p).1 := by
  let j := newJob (if (s.jobAt 0).isNone then 0 else 1) (nextJobNumber (s.rep.jobs.map (·.number)) s.rep.lastJob) k count u p
    (s.recordList k count).1 (s.recordList k count).2
  let t : State := { s with store := (s.recordList k count).1.foldl Store.pin s.store,
                            rep := { jobs := insertBy (·.entry) j s.rep.jobs, lastJob := j.number } }
  have hperm := insertBy_perm (·.entry) j s.rep.jobs
  have hjoin : s.Keeps t := by
    refine State.KeepsRest.keeps ⟨rfl, ?mem, id, id, id, fun hb => ⟨?size, hb.2⟩, id, id, ?dir⟩ fun hp => ?pins
    case mem =>
      change Memory.wf s.store.nv.mem → Memory.wf ((s.recordList k count).1.foldl Store.pin s.store).nv.mem
      rw [foldl_pin_eq]
      exact id
    case size =>
      rw [hperm.length_eq, List.length_cons]
      omega
    case dir => exact Store.foldl_pin_directoryOk _
    case pins =>
      exact (pinsOk_iff t).2 ⟨fun h => absurd hopen h, Store.pinsOk_join ((pinsOk_iff s).1 hp).2 (freeEntry hfew)
        (fun r hr => recordList_canPin hr) _ hperm⟩
  have hheld : (t.answer 4 0 j.number false sender).holds j := holds_of_mem (mem_insertBy.2 (.inl rfl))
  exact (hjoin.trans (answer_keeps ..)).trans (askPrinter_keeps hheld)

theorem printRequest_keeps {s : State} (hopen : s.sup.opening = none) (sender : Nat) (f : PrintRequestFrame) :
    s.Keeps (s.printRequest sender f).1 := by
  unfold State.printRequest
  split
  · exact .refl s
  · split
    · exact answer_keeps ..
    · split
      · exact answer_keeps ..
      · split
        · exact answer_keeps ..
        · exact acceptPrint_keeps hopen (by omega) ..

/-! ## The printer port (R173) -/

theorem headPrinted_keeps (s : State) : s.Keeps s.headPrinted.1 := by
  have hhead : s.Keeps { s with prn := { s.prn with buffer := s.prn.buffer.tail, port := portBytes (s.prn.buffer.headD []) } } :=
    withPrn_keeps fun h => by
      obtain ⟨h8, h2, hnot, hidle, hone⟩ := h
      exact ⟨h8, by simp; omega, hnot, fun hs => ⟨by simp [(hidle hs).1], (hidle hs).2⟩, hone⟩
  refine (hhead.trans (fillBuffer_keeps _)).trans ?_
  unfold State.headPrinted Exchange.andThen
  dsimp only
  split
  · rename_i hend
    obtain ⟨hstate, hbuf, htrailer⟩ := hend
    refine .trans (withPrn_keeps fun h => ?_) (chooseJob_keeps _)
    obtain ⟨h8, h2, hnot, -, hone⟩ := h
    exact ⟨h8, h2, fun _ => hnot (by rw [hstate]; decide), fun _ => ⟨hbuf, htrailer⟩, hone⟩
  · exact .refl _

theorem holdOwnPending_keeps (s : State) : s.Keeps s.holdOwnPending.1 := by
  unfold State.holdOwnPending
  split
  · split
    · exact .trans (withPrn_keeps fun h => Printer.ok_unpend h fun _ => rfl) (post_keeps ..)
    · exact .refl s
  · exact .refl s

/-! ## Timers (R20) -/

theorem atTimer_keeps (s : State) (t : Option Nat) {f : State → State}
    (h : ∀ x : State, x.prn = s.prn → x.rep = s.rep → x.Keeps (f x)) : s.Keeps (s.atTimer t f) := by
  unfold State.atTimer
  split
  · split
    · exact (passTo_keeps ..).trans (h _ (passTo_prn ..) (passTo_rep ..))
    · exact .refl s
  · exact .refl s

theorem jobTimer_keeps (s : State) (entry : Fin 2) (st : JobState) (timer : Job → Option Nat) {f : Job → State → State}
    (h : ∀ (x : State) (j : Job), x.holds j → x.Keeps (f j x)) : s.Keeps (s.jobTimer entry st timer f) := by
  unfold State.jobTimer
  split
  · rename_i j hj
    split
    · refine atTimer_keeps s _ fun x _ hrep => h x j ?_
      have := jobAt_holds hj
      unfold State.holds at *
      rwa [hrep]
    · exact .refl s
  · exact .refl s

end Sys2Proof.Machine
end

section
/-!
PROOF. What survey control and the completions of the store's writes keep, and with them every command: the laws of Safety.lean
through every step (O2 to O7).
-/

namespace Sys2Proof.Machine

/-! ## Acceptance (R4) -/

@[simp] theorem takeLine_rep (s : State) (e : QueueEntry) (k : Nat) (l : List Byte) : (s.takeLine e k l).1.rep = s.rep :=
  post_rep ..

@[simp] theorem fillBuffer_rep (s : State) : s.fillBuffer.1.rep = s.rep := by
  unfold State.fillBuffer
  split
  · split
    · exact takeLine_rep ..
    · split <;> rfl
  · rfl

/-- With no block pending the buffer is filled without a message. -/
theorem fillBuffer_messages {s : State} (h : s.prn.waiting = none) : s.fillBuffer.2 = [] := by
  unfold State.fillBuffer
  rw [h]
  repeat' split
  all_goals simp_all

theorem dropped_rep (s : State) (o : Party) (n : Nat) : (s.dropped o n).1.rep = s.rep := by
  unfold State.dropped
  split
  · split
    · exact fillBuffer_rep _
    · rfl
  · rfl

theorem dropped_messages (s : State) (o : Party) (n : Nat) : (s.dropped o n).2 = [] := by
  unfold State.dropped
  split
  · split
    · exact fillBuffer_messages rfl
    · rfl
  · rfl

/-- A DROP at the printer service makes no message, and leaves the jobs. -/
theorem serviceTake_drop (s : State) (o : Party) (n : Nat) :
    (s.serviceTake o (.drop n)).1.rep = s.rep ∧ (s.serviceTake o (.drop n)).2 = [] := by
  unfold State.serviceTake
  split
  · exact ⟨rfl, rfl⟩
  · exact ⟨dropped_rep .., dropped_messages ..⟩

/-- An abandonment ends the job, and its DROP ends none other (R164). -/
theorem abandon_rep (s : State) (j : Job) : (s.abandon j).run.rep.jobs = s.rep.jobs.filter fun x => x.entry != j.entry := by
  unfold State.abandon
  cases j.printer with
  | station n => simp
  | own =>
    obtain ⟨hrep, hmsg⟩ := serviceTake_drop (s.endJob j .abandoned) .own j.number
    change (runHands 31 ((s.endJob j .abandoned).serviceTake .own (.drop j.number)).1
      ([] ++ ((s.endJob j .abandoned).serviceTake .own (.drop j.number)).2)).rep.jobs = _
    rw [hmsg, List.append_nil, runHands, hrep, endJob_jobs]

theorem abandonForSurvey_jobs (s : State) (j : Job) :
    (s.abandonForSurvey j).rep.jobs = s.rep.jobs.filter fun x => x.entry != j.entry := by
  unfold State.abandonForSurvey
  split
  · exact endJob_jobs ..
  · exact abandon_rep ..

theorem abandonForSurvey_rest (s : State) (j : Job) : s.KeepsRest (s.abandonForSurvey j) := by
  unfold State.abandonForSurvey
  split
  · exact endJob_rest ..
  · exact ((post_keeps ..).rest.trans (endJob_rest ..)).trans (runHands_keeps ..).rest

theorem abandonForSurvey_pinsOk {s : State} {j : Job} (h : s.holds j) (hp : s.pinsOk) : (s.abandonForSurvey j).pinsOk := by
  unfold State.abandonForSurvey
  split
  · exact endJob_pinsOk h _ hp
  · exact (abandon_keeps h).run.pins hp

/-- Jobs of different entries leave the table one after another. -/
theorem foldl_leave_pinsOk {f : State → Job → State}
    (hjobs : ∀ s j, (f s j).rep.jobs = s.rep.jobs.filter fun x => x.entry != j.entry)
    (hpins : ∀ s j, s.holds j → s.pinsOk → (f s j).pinsOk) (l : List Job) (s : State) (hl : (l.map (·.entry)).Nodup)
    (h : ∀ j ∈ l, s.holds j) (hp : s.pinsOk) : (l.foldl f s).pinsOk := by
  induction l generalizing s with
  | nil => exact hp
  | cons j l ih =>
    obtain ⟨hj, hl⟩ := List.nodup_cons.1 hl
    refine ih _ hl (fun k hk => ?_) (hpins s j (h j List.mem_cons_self) hp)
    obtain ⟨x, hx, hentry, hrecords⟩ := h k (List.mem_cons_of_mem _ hk)
    refine ⟨x, ?_, hentry, hrecords⟩
    have hne : x.entry ≠ j.entry := fun he => hj (List.mem_map.2 ⟨k, hk, hentry.symm.trans he⟩)
    simp [hjobs, hx, hne]

/-- A job that is left is of no entry that has left. -/
theorem foldl_leave_jobs {f : State → Job → State}
    (hjobs : ∀ s j, (f s j).rep.jobs = s.rep.jobs.filter fun x => x.entry != j.entry) (l : List Job) (s : State) :
    ∀ x ∈ (l.foldl f s).rep.jobs, x ∈ s.rep.jobs ∧ ∀ j ∈ l, x.entry ≠ j.entry := by
  induction l generalizing s with
  | nil => simp
  | cons j l ih =>
    intro x hx
    obtain ⟨hmem, hne⟩ := ih _ x hx
    rw [hjobs] at hmem
    obtain ⟨hmem, hj⟩ := List.mem_filter.1 hmem
    exact ⟨hmem, List.forall_mem_cons.2 ⟨by simpa using hj, hne⟩⟩

/-- After stage 1 of an acceptance the table is empty. -/
theorem abandonJobs_jobs (s : State) : s.abandonJobs.rep.jobs = [] :=
  List.eq_nil_iff_forall_not_mem.2 fun x hx =>
    have ⟨hmem, hne⟩ := foldl_leave_jobs abandonForSurvey_jobs s.rep.jobs s x hx
    hne x hmem rfl

theorem abandonJobs_keeps (s : State) : s.Keeps s.abandonJobs :=
  (foldl_rest abandonForSurvey_rest s.rep.jobs s).keeps fun hp =>
    foldl_leave_pinsOk abandonForSurvey_jobs (fun _ _ => abandonForSurvey_pinsOk) _ s ((pinsOk_iff s).1 hp).2.2.1
      (fun _ => holds_of_mem) hp

/-- The later stages of an acceptance begin with no job in the table. -/
theorem finishOpening_keeps {s : State} (h : s.pinsOk → s.rep.jobs = []) (r : OpenRequest) : s.Keeps (s.finishOpening r) := by
  refine .trans (.trans ?_ (writeHeader_keeps _)) (.trans (State.Keeps.free _ _ _ _ _ _ _ _ _ _) (answer_keeps ..))
  refine State.KeepsRest.keeps ⟨rfl, id, id, id, fun _ => ⟨Nat.zero_le 32, Nat.zero_le 4⟩,
    fun hb => ⟨hb.1, Nat.zero_le 512, Nat.zero_le 8, Nat.zero_le 8⟩, fun _ => (Counters.ok_iff _).2 (by simp),
    fun _ => ⟨.nil, fun _ hx => nomatch hx⟩, Store.clear_directoryOk⟩ fun hp => (pinsOk_iff _).2 ⟨fun ho => absurd rfl ho, ?_⟩
  dsimp only
  rw [h hp]
  exact s.store.clear_pinsOk

theorem acceptSurvey_keeps (s : State) (r : OpenRequest) : s.Keeps (s.acceptSurvey r) := by
  unfold State.acceptSurvey
  dsimp only
  split
  · refine (abandonJobs_keeps s).trans (State.KeepsRest.keeps ⟨rfl, id, id, id, id, id, id, id, id⟩ fun hp => ?_)
    exact (pinsOk_iff _).2 ⟨fun _ => abandonJobs_jobs s, ((pinsOk_iff _).1 hp).2⟩
  · exact (abandonJobs_keeps s).trans (finishOpening_keeps (fun _ => abandonJobs_jobs s) r)

theorem surveyOpen_keeps (s : State) (sender : Nat) (f : SurveyOpenFrame) : s.Keeps (s.surveyOpen sender f) := by
  unfold State.surveyOpen
  dsimp only
  split
  · exact .refl s
  · split
    · exact acceptSurvey_keeps ..
    · split
      · exact answer_keeps ..
      · exact acceptSurvey_keeps ..
    all_goals
      split
      · exact .refl s
      · exact answer_keeps ..

/-! ## Closing and parking (R6, R20) -/

theorem stopTimebase_keeps (s : State) : s.Keeps s.stopTimebase := .withTb s id

theorem withHdrState_keeps (s : State) (st : HeaderState) : s.Keeps { s with hdr := { s.hdr with state := st } } := .withHdr s id

theorem beginSealing_keeps (s : State) (code : Nat) (o : CapOutcome) (e : SealingEnd) : s.Keeps (s.beginSealing code o e) :=
  .trans (.trans (sealEvent_keeps ..) (sealCaptures_keeps _ o)) (.withSup _ rfl)

theorem finishClose_keeps (s : State) (asked : List Nat) : s.Keeps (s.finishClose asked) :=
  .trans (.trans (.trans (.trans (stopHarmonic_keeps s false) (stopTimebase_keeps _)) (withHdrState_keeps _ .closed))
    (writeHeader_keeps _)) (foldl_keeps (fun s sender => answer_keeps s 2 0 0 false sender) asked _)

theorem finishPark_keeps (s : State) : s.Keeps s.finishPark := by
  have hjobs : ∀ x : State, x.Keeps (x.rep.jobs.foldl (fun s j => s.endJob j .abandoned) x) := fun x =>
    (foldl_rest (fun s j => endJob_rest s j .abandoned) _ x).keeps fun hp =>
      foldl_leave_pinsOk (fun s j => endJob_jobs s j .abandoned) (fun _ _ h => endJob_pinsOk h .abandoned) _ x
        ((pinsOk_iff x).1 hp).2.2.1 (fun _ => holds_of_mem) hp
  have hlast : ∀ x : State, x.Keeps { x with
      ckpt := none, line := { x.line with beaconTimer := none }, prn := { x.prn with inactivity := none, goTimer := none } } :=
    fun _ => ⟨rfl, id, id, id, id, id, id, id, id, id⟩
  exact .trans (.trans (.trans (.trans (stopHarmonic_keeps s true) (hjobs _)) (writeHeader_keeps _)) (stopTimebase_keeps _)) (hlast _)

theorem endSealing_keeps (s : State) : s.Keeps s.endSealing := by
  unfold State.endSealing
  split
  · rename_i x _
    split
    · have hsup : s.Keeps { s with sup := { s.sup with sealing := none } } := .withSup s rfl
      dsimp only
      split
      · exact hsup.trans (finishClose_keeps ..)
      · exact hsup.trans (finishPark_keeps _)
    · exact .refl s
  · exact .refl s

theorem closeSurvey_keeps (s : State) (asked : List Nat) : s.Keeps (s.closeSurvey asked) := by
  unfold State.closeSurvey
  split
  · exact (beginSealing_keeps ..).trans (endSealing_keeps _)
  · exact .withSup s rfl
  · exact .refl s

theorem surveyClose_keeps (s : State) (sender n : Nat) : s.Keeps (s.surveyClose sender n) := by
  unfold State.surveyClose
  split
  · exact .refl s
  · split
    · exact closeSurvey_keeps ..
    · exact closeSurvey_keeps ..
    · exact answer_keeps ..
    · exact .refl s

theorem limitTest_keeps (s : State) : s.Keeps s.limitTest := by
  unfold State.limitTest
  split
  · exact closeSurvey_keeps ..
  · exact .refl s

theorem rejoin_keeps (s : State) (b : BeaconInfo) : s.Keeps (s.rejoin b) := by
  unfold State.rejoin
  split
  · split
    · exact .trans (.trans (.trans (setSurvey_keeps s b.time 0) (withHdrState_keeps _ .recording)) (writeHeader_keeps _))
        (limitTest_keeps _)
    · split
      · exact closeSurvey_keeps ..
      · exact .refl s
  · exact .refl s

theorem runPark_keeps (s : State) : s.Keeps s.runPark := by
  have hbegin : s.Keeps { s with sup := { s.sup with parkWait := false },
                                 store := { s.store with writes := s.store.writes.filter s.store.keptAtParking } } :=
    ⟨rfl, id, id, id, id, id, id, id, id, fun hp => hp⟩
  exact (hbegin.trans (beginSealing_keeps ..)).trans (endSealing_keeps _)

theorem enterPark_keeps (s : State) : s.Keeps s.enterPark := by
  have hstop : s.Keeps { s with mode := .parked, line := { s.line with queue := [] }, sup := { s.sup with parkDue := false } } :=
    ⟨rfl, id, fun _ => Line.ok_empty rfl, id, id, id, id, id, id, fun hp => hp⟩
  unfold State.enterPark
  dsimp only
  split
  · exact hstop.trans (.withSup _ rfl)
  · exact hstop.trans (runPark_keeps _)

theorem park_keeps (s : State) : s.Keeps s.park := by
  unfold State.park
  split
  · exact .withSup s rfl
  · exact enterPark_keeps s

/-! ## Restarts (R15 to R17) -/

theorem rebuildOne_ok (st : Store) {t : List NoteEntry} (h : notesOk t) (e : Entry) : notesOk (rebuildOne st t e) :=
  notesOk_map (fun x => by split <;> rfl) (applyNote_ok h _)

theorem rebuildNotes_ok (st : Store) (checkpoint : Nat) : notesOk (st.rebuildNotes checkpoint) := by
  refine notesOk_map (expireAt_site checkpoint) ?_
  have hfold : ∀ (l : List Entry) (t : List NoteEntry), notesOk t → notesOk (l.foldl (rebuildOne st) t) := fun l => by
    induction l with
    | nil => exact fun _ h => h
    | cons e l ih => exact fun _ h => ih _ (rebuildOne_ok st h e)
  exact hfold _ _ ⟨Nat.zero_le 32, Nat.zero_le 4⟩

theorem freshPrinter_ok (fitted : Bool) : (freshPrinter fitted).ok := by
  cases fitted <;> simp [Printer.ok, freshPrinter]

theorem emptyLine_ok (muted : Bool) (t : Option Nat) : ({ queue := [], roster := [], muted := muted, beaconTimer := t } : Line).ok :=
  Line.ok_empty rfl

theorem fresh_slotsOk : slotsOk [] := ⟨.nil, fun _ hx => nomatch hx⟩

theorem restarted_log (h : Header) (c : Cause) : (h.restarted c).log.length ≤ 8 := pushBounded_length (by omega) _

theorem cutOff_keeps (s : State) : s.Keeps s.cutOff := by
  refine ⟨rfl, Store.cut_mem, fun _ => emptyLine_ok .., fun _ => freshPrinter_ok false, fun _ => ⟨Nat.zero_le 32, Nat.zero_le 4⟩,
    fun hb => ⟨Nat.zero_le 2, Nat.zero_le 512, hb.2.2.1, hb.2.2.2⟩, fun _ => (Counters.ok_iff _).2 (by simp [State.cutOff]), fun _ => fresh_slotsOk,
    fun hd => Store.directoryOk_empty (Store.cut_dir _) (Store.cut_sys hd), fun _ => (pinsOk_iff _).2 ⟨fun _ => rfl, ?_⟩⟩
  exact Store.pinsOk_nil (by simp [State.cutOff]) (by simp [State.cutOff]) (by simp [State.cutOff])

theorem runRestart_keeps (s : State) (c : Cause) (i : RestartInputs) : s.Keeps (s.runRestart c i) := by
  obtain ⟨hmem, hdir, hpins⟩ := s.store.restart_ok i.failingPages
  refine .trans ?_ (writeHeader_keeps _)
  refine ⟨rfl, hmem, fun _ => emptyLine_ok .., fun _ => freshPrinter_ok _, fun _ => rebuildNotes_ok ..,
    fun _ => ⟨Nat.zero_le 2, Nat.zero_le 512, ?_, restarted_log ..⟩, fun _ => (Counters.ok_iff _).2 (by simp [satAdd_le]),
    fun _ => fresh_slotsOk, hdir, fun _ => (pinsOk_iff _).2 ⟨fun _ => rfl, hpins⟩⟩
  dsimp only
  split <;> exact Nat.zero_le 8

theorem restart_keeps (s : State) (c : Cause) (i : RestartInputs) : s.Keeps (s.restart c i) := by
  unfold State.restart
  dsimp only
  split
  · exact (runRestart_keeps ..).trans (enterPark_keeps _)
  · exact runRestart_keeps ..

/-! ## After a write (R20, R21, R95) -/

theorem sealingGoesOn_keeps (s : State) : s.Keeps s.sealingGoesOn := by
  unfold State.sealingGoesOn
  split
  · dsimp only
    split
    · exact (endSealing_keeps s).trans (enterPark_keeps _)
    · exact endSealing_keeps s
  · exact .refl s

theorem afterWrite_keeps (s : State) : s.Keeps s.afterWrite := by
  unfold State.afterWrite
  dsimp only
  split
  · split
    · exact (sealingGoesOn_keeps s).trans (restart_keeps ..)
    · exact sealingGoesOn_keeps s
  · exact sealingGoesOn_keeps s

theorem afterPage_keeps (s : State) : s.Keeps s.afterPage := by
  unfold State.afterPage
  split
  · rename_i r hr
    have hopening := finishOpening_keeps (s := s) (fun hp => ((pinsOk_iff s).1 hp).1 (by simp [hr])) r
    dsimp only
    split
    · exact hopening.trans (enterPark_keeps _)
    · exact hopening
  · split
    · exact runPark_keeps s
    · exact .refl s

/-! ### An operation that ends no page write leaves alone what waits for retirement -/

@[simp] theorem Store.push_retiring (st : Store) (w : StoreWrite) : (st.push w).retiring = st.retiring := rfl

@[simp] theorem Store.writeEntryOf_retiring (st : Store) (r : Nat) : (st.writeEntryOf r).retiring = st.retiring := by
  unfold Store.writeEntryOf
  split <;> rfl

@[simp] theorem Store.closing_retiring (st : Store) (r k : Nat) (header : List Byte) :
    (st.closing r k header).1.retiring = st.retiring := by
  unfold Store.closing
  repeat' split
  all_goals rfl

@[simp] theorem Slot.closingWrites_retiring (sl : Slot) (n : Nat) (st : Store) : (sl.closingWrites n st).retiring = st.retiring := by
  unfold Slot.closingWrites
  split
  · exact Store.closing_retiring ..
  · rfl

@[simp] theorem Store.foldl_unpin_retiring (st : Store) (l : List Nat) : (l.foldl Store.unpin st).retiring = st.retiring := by
  rw [foldl_unpin_eq]

theorem Store.issue_retiring {st st' : Store} {survey r : Nat} {req : CreateRequest} (h : st.issue survey req = some (st', r)) :
    st'.retiring = st.retiring := by
  unfold Store.issue at h
  split at h
  · cases h
  · dsimp only at h
    split at h
    · cases h
    · cases h
      rfl

@[simp] theorem Store.create_retiring (st : Store) (survey quota : Nat) (req : CreateRequest) :
    (st.create survey quota req).1.retiring = st.retiring := by
  unfold Store.create
  split
  · rfl
  · split
    · exact (Store.issue_retiring ‹_›).trans (Store.reclaim_retiring_eq ..)
    · exact Store.reclaim_retiring_eq ..

@[simp] theorem storeOnePage_retiring (s : State) (tag : Tag) (n : Option Nat) (bs : List Byte) :
    (s.storeOnePage tag n bs).1.store.retiring = s.store.retiring := by
  unfold State.storeOnePage State.create
  dsimp only
  split <;> simp

@[simp] theorem sealEvent_retiring (s : State) (o stop : Nat) : (s.sealEvent o stop).store.retiring = s.store.retiring := by
  unfold State.sealEvent
  split
  · rfl
  · dsimp only
    split <;> simp

@[simp] theorem sealInterval_retiring (s : State) (b : Bool) : (s.sealInterval b).store.retiring = s.store.retiring := by
  unfold State.sealInterval
  split
  · rfl
  · dsimp only
    split <;> simp

@[simp] theorem stopHarmonic_retiring (s : State) (b : Bool) : (s.stopHarmonic b).store.retiring = s.store.retiring :=
  sealInterval_retiring ..

@[simp] theorem sealCaptures_retiring (s : State) (o : CapOutcome) : (s.sealCaptures o).store.retiring = s.store.retiring := by
  have hfold : ∀ (l : List Slot) (s : State), (l.foldl
      (fun s sl => s.sealSlot sl (if sl.running then o else .complete)) s).store.retiring = s.store.retiring := fun l => by
    induction l with
    | nil => exact fun _ => rfl
    | cons sl l ih => exact fun s => (ih _).trans (Slot.closingWrites_retiring ..)
  exact hfold ..

@[simp] theorem endJob_retiring (s : State) (j : Job) (e : JobEnd) : (s.endJob j e).store.retiring = s.store.retiring := by
  unfold State.endJob State.offerWatermark
  dsimp only
  repeat' split
  all_goals simp [State.writeHeader]

@[simp] theorem foldl_endJob_retiring (e : JobEnd) (l : List Job) (s : State) :
    (l.foldl (fun s j => s.endJob j e) s).store.retiring = s.store.retiring := by
  induction l generalizing s with
  | nil => rfl
  | cons j l ih => exact (ih _).trans (endJob_retiring ..)

@[simp] theorem foldl_answer_store (asked : List Nat) (s : State) :
    (asked.foldl (fun s sender => s.answer 2 0 0 false sender) s).store = s.store := by
  induction asked generalizing s with
  | nil => rfl
  | cons n asked ih => exact (ih _).trans (answer_store ..)

@[simp] theorem endSealing_retiring (s : State) : s.endSealing.store.retiring = s.store.retiring := by
  unfold State.endSealing
  split
  · split
    · dsimp only
      split
      · simp [State.finishClose, State.writeHeader]
      · simp [State.finishPark, State.writeHeader]
    · rfl
  · rfl

@[simp] theorem runPark_retiring (s : State) : s.runPark.store.retiring = s.store.retiring := by
  simp [State.runPark, State.beginSealing]

@[simp] theorem enterPark_retiring (s : State) : s.enterPark.store.retiring = s.store.retiring := by
  unfold State.enterPark
  dsimp only
  split <;> simp

theorem finishOpening_retiring (s : State) (r : OpenRequest) : (s.finishOpening r).store.retiring = none := by
  simp only [State.finishOpening, answer_store]
  rfl

theorem afterPage_retiring {s : State} (h : s.store.retiring = none) : s.afterPage.store.retiring = none := by
  unfold State.afterPage
  split
  · dsimp only
    split <;> simp [finishOpening_retiring]
  · split <;> simp [h]

/-! ## The ends of writes (R120, R132 to R134) -/

theorem notesOk_forget {t : List NoteEntry} (h : notesOk t) (r : Nat) :
    notesOk (t.map fun n => if n.record == some r then { n with record := none } else n) :=
  notesOk_map (fun n => by split <;> rfl) h

theorem freeRecord_keeps (s : State) (r : Nat) : s.Keeps { s with cap := s.cap.freeRecord r } :=
  (State.Keeps.refl s).setSlots fun h => slotsOk_sublist h List.filter_sublist

theorem recordFailed_keeps (s : State) (e : Entry) : s.Keeps (s.recordFailed e) := by
  unfold State.recordFailed
  split
  · refine .withCtr s fun h => ?_
    rw [Counters.ok_iff] at *
    simp [satAdd_le, h]
  · exact freeRecord_keeps ..
  · refine .withCtr s fun h => ?_
    rw [Counters.ok_iff] at *
    simp [satAdd_le, h]
  · exact .withNotes s fun h => notesOk_forget h _

@[simp] theorem recordFailed_store (s : State) (e : Entry) : (s.recordFailed e).store = s.store := by
  unfold State.recordFailed
  split <;> rfl

/-- A retirement: the store's, with the counters following and the producer told, before what goes on after it. -/
theorem settleRetiring_eq {s : State} {x : Retiring} (hx : s.store.retiring = some x) (hl : x.listed = false) :
    ∃ u : State, s.settleRetiring = (if u.store.retiring.isSome then u else u.afterPage) ∧ s.Keeps u ∧
      u.store = (s.store.settleRetiring x).1 := by
  have hctr : s.ctr.ok → ({ s.ctr with badPages := satAdd s.ctr.badPages 1 }.reclaimed (s.store.settleRetiring x).2.2).ok :=
    fun h => Counters.ok_reclaimed (by rw [Counters.ok_iff] at *; simp [satAdd_le, h]) _
  have htold := (State.Keeps.withStore s (Store.settleRetiring_keeps hx)).setCtr hctr
  unfold State.settleRetiring
  rw [hx]
  dsimp only
  rw [if_neg (by simp [hl])]
  split
  · split
    · exact ⟨_, rfl, htold, rfl⟩
    · exact ⟨_, rfl, htold.trans (recordFailed_keeps ..), recordFailed_store ..⟩
  · exact ⟨_, rfl, htold, rfl⟩

/-- With nothing to retire. -/
theorem settleRetiring_none {s : State} (h : s.store.settledOk) : s.settleRetiring = s := by
  unfold State.settleRetiring
  split
  · exact if_pos (h _ ‹_›)
  · rfl

theorem settleRetiring_keeps (s : State) : s.Keeps s.settleRetiring := by
  by_cases hs : s.store.settledOk
  · rw [settleRetiring_none hs]
    exact .refl s
  · obtain ⟨x, hx, hl⟩ : ∃ x, s.store.retiring = some x ∧ x.listed = false := by simpa [Store.settledOk] using hs
    obtain ⟨u, heq, hu, -⟩ := settleRetiring_eq hx hl
    rw [heq]
    split
    · exact hu
    · exact hu.trans (afterPage_keeps u)

/-- After it no page waits for retirement. -/
theorem settleRetiring_settledOk (s : State) : s.settleRetiring.store.settledOk := by
  by_cases hs : s.store.settledOk
  · rwa [settleRetiring_none hs]
  · obtain ⟨x, hx, hl⟩ : ∃ x, s.store.retiring = some x ∧ x.listed = false := by simpa [Store.settledOk] using hs
    obtain ⟨u, heq, -, hu⟩ := settleRetiring_eq hx hl
    rw [heq]
    split
    · exact hu.symm ▸ Store.settleRetiring_settled _ _
    · rename_i hnone
      have := afterPage_retiring (Option.not_isSome_iff_eq_none.1 hnone)
      intro y hy
      simp [this] at hy

theorem sysEnded_keeps (s : State) (item : SysItem) (ok : Bool) : s.Keeps (s.sysEnded item ok) := by
  unfold State.sysEnded
  split
  · exact .withStore s (s.store.released_keeps ..)
  · split
    · exact settleRetiring_keeps s
    · exact .refl s
  · exact .refl s

theorem sysDone_keeps (s : State) (ok : Bool) : s.Keeps (s.sysDone ok) := by
  unfold State.sysDone
  split
  · rename_i item retried st hr
    have hk := Store.reach_keeps hr
    split
    · exact (State.Keeps.withStore s (hk.trans (st.writeSys_keeps item))).trans (sysEnded_keeps ..)
    · split
      · exact (State.Keeps.withStore s (hk.trans (st.tearSys_keeps item))).trans (sysEnded_keeps ..)
      · exact .withStore s (hk.trans (st.writes_keeps _))
  · exact .refl s

theorem drain_keeps (which : StoreWrite → Bool) (n : Nat) (s : State) : s.Keeps (s.drain which n) := by
  induction n generalizing s with
  | zero => exact .refl s
  | succ n ih =>
    unfold State.drain
    split
    · exact (sysDone_keeps s true).trans (ih _)
    · exact .refl s

theorem reach_keeps (s : State) (which : StoreWrite → Bool) : s.Keeps (s.reach which) := drain_keeps ..

/-- A page write ends in a store where no page waits for retirement. -/
theorem pageEnded_keeps {s : State} (h : s.store.settledOk) (r pos : Nat) (bs : List Byte) (next : PageNext) (ok : Bool) :
    s.Keeps (s.pageEnded r pos bs next ok) := by
  unfold State.pageEnded
  split
  · rename_i e he
    split
    · exact afterPage_keeps s
    · split
      · have hmatch := State.Keeps.withStore s (Store.pageMatch_keeps h r pos bs next)
        refine .trans ?_ (afterPage_keeps _)
        unfold State.pageVerified
        split
        · exact hmatch.trans (freeRecord_keeps ..)
        · exact hmatch
      · split
        · have hmis := State.Keeps.withStore s (Store.mismatch_keeps h (Store.entryOf_some he).1 ‹_› bs next)
          unfold State.pageFailed
          dsimp only
          split
          · exact hmis
          · exact hmis.trans (recordFailed_keeps ..)
        · exact afterPage_keeps s
  · exact afterPage_keeps s

theorem pageDone_keeps (s : State) (ok : Bool) : s.Keeps (s.pageDone ok) := by
  unfold State.pageDone
  split
  · have hcalm := (reach_keeps s StoreWrite.isPage).trans (settleRetiring_keeps _)
    have hsettled := settleRetiring_settledOk (s.reach StoreWrite.isPage)
    dsimp only
    split
    · rename_i hr
      have hstore := (Store.reach_some hr).1
      refine (hcalm.setStore (Store.reach_keeps hr)).trans (pageEnded_keeps ?_ ..)
      rw [hstore]
      exact hsettled
    · exact hcalm
  · exact .refl s

theorem headerDone_keeps (s : State) (ok : Bool) : s.Keeps (s.headerDone ok) :=
  (reach_keeps ..).setStore (Store.headerDone_keeps ..)

end Sys2Proof.Machine
end

section
/-!
PROOF. What every command keeps, and the laws of Safety.lean through every step (O2 to O6), with the state after reset (O7).
-/

namespace Sys2Proof.Machine

/-! ## The commands of the line interface (R182 to R186, R88) -/

/-- A frame of a queue with none under transmission starts. -/
theorem Line.ok_start {l : Line} (h : l.ok) (hnone : l.queue.any (·.sending) = false) (i : Nat) (b : BeaconInfo) :
    { l with queue := l.queue.modify i (TxFrame.start b) }.ok := by
  obtain ⟨h8, hm, -, hb⟩ := h
  have hnone : ∀ f ∈ l.queue, f.sending = false := by simpa using hnone
  by_cases hi : i < l.queue.length
  · obtain ⟨l₁, f, l₂, hq, hmod⟩ : ∃ l₁ f l₂, l.queue = l₁ ++ f :: l₂ ∧
        l.queue.modify i (TxFrame.start b) = l₁ ++ TxFrame.start b f :: l₂ :=
      ⟨l.queue.take i, l.queue[i], l.queue.drop (i + 1), by simp, List.modify_eq_take_cons_drop hi⟩
    rw [hq] at hnone h8 hb
    have hnone₁ : ∀ f ∈ l₁, f.sending = false := fun g hg => hnone g (by simp [hg])
    have hnone₂ : ∀ f ∈ l₂, f.sending = false := fun g hg => hnone g (by simp [hg])
    rw [hmod]
    refine ⟨by simpa using h8, fun hmute => ?_, ?_, ?_⟩
    · have := hm hmute
      simp [hq] at this
    · have h₁ : l₁.filter (·.sending) = [] := List.filter_eq_nil_iff.2 fun f hf => by simp [hnone₁ f hf]
      have h₂ : l₂.filter (·.sending) = [] := List.filter_eq_nil_iff.2 fun f hf => by simp [hnone₂ f hf]
      simp [List.filter_append, h₁, h₂, TxFrame.start]
    · have hle : ((l₁ ++ TxFrame.start b f :: l₂).filter fun f => f.payload.isBeacon && !f.sending).length ≤
          ((l₁ ++ f :: l₂).filter fun f => f.payload.isBeacon && !f.sending).length := by
        simp only [List.filter_append, List.filter_cons, TxFrame.start, List.length_append]
        split <;> simp_all
      exact hle.trans hb
  · rw [List.modify_eq_self (by omega)]
    have hempty : l.queue.filter (·.sending) = [] := List.filter_eq_nil_iff.2 fun f hf => by simp [hnone f hf]
    exact ⟨h8, hm, by simp [hempty], hb⟩

theorem Line.ok_leave {l : Line} (h : l.ok) : l.leave.ok := Line.ok_of_sublist h List.eraseP_sublist

theorem Line.current_mem {l : Line} {f : TxFrame} (h : l.current = some f) : f ∈ l.queue ∧ f.sending = true :=
  ⟨List.mem_of_find?_eq_some h, List.find?_some (p := TxFrame.sending) h⟩

theorem eq_of_length_le_one {α : Type} {l : List α} (h : l.length ≤ 1) {a b : α} (ha : a ∈ l) (hb : b ∈ l) : a = b := by
  match l with
  | [x] => rw [List.mem_singleton.1 ha, List.mem_singleton.1 hb]
  | x :: y :: l => simp at h

/-- The frame under transmission is the only one. -/
theorem Line.eq_current {l : Line} (h : l.ok) {f g : TxFrame} (hf : l.current = some f) (hg : g ∈ l.queue) (hs : g.sending = true) :
    g = f := by
  obtain ⟨-, -, h1, -⟩ := h
  obtain ⟨hf, hfs⟩ := Line.current_mem hf
  exact eq_of_length_le_one h1 (List.mem_filter.2 ⟨hg, hs⟩) (List.mem_filter.2 ⟨hf, hfs⟩)

/-- The frame whose attempt is over waits again, or leaves the queue to a later beacon (log 47). -/
theorem Line.ok_waitAgain {l : Line} (h : l.ok) {f : TxFrame} (hf : l.current = some f) {g : TxFrame → TxFrame}
    (hs : ∀ x, (g x).sending = false) (hb : ∀ x, (g x).payload = x.payload) : (l.waitAgain f g).ok := by
  unfold Line.waitAgain
  split
  · exact Line.ok_leave h
  · rename_i hlater
    have honly := fun x hx hs => Line.eq_current (g := x) h hf hx hs
    obtain ⟨h8, hm, h1, hw⟩ := h
    have hsend : ∀ x : TxFrame, (if x.sending then g x else x).sending = false := fun x => by
      split
      · exact hs x
      · simpa using ‹¬x.sending = true›
    have hpay : ∀ x : TxFrame, (if x.sending then g x else x).payload = x.payload := fun x => by
      split
      · exact hb x
      · rfl
    refine ⟨by simpa [Line.change] using h8, fun hmute => by simp [Line.change, hm hmute], ?_, ?_⟩
    · simp [Line.change, List.filter_map, Function.comp_def, hsend]
    · rw [Line.change, List.filter_map, List.length_map, Function.comp_def]
      simp only [hsend, hpay, Bool.not_false, Bool.and_true]
      cases hfb : f.payload.isBeacon with
      | true =>
        have hnone : ∀ x ∈ l.queue, x.payload.isBeacon = true → x.sending = true := by
          simpa [hfb] using hlater
        have heq : l.queue.filter (fun x => x.payload.isBeacon) = (l.queue.filter (·.sending)).filter fun x => x.payload.isBeacon := by
          rw [List.filter_filter]
          exact List.filter_congr fun x hx => by
            cases hxb : x.payload.isBeacon
            · simp
            · simp [hnone x hx hxb]
        rw [heq]
        exact (List.length_filter_le ..).trans h1
      | false =>
        have heq : l.queue.filter (fun x => x.payload.isBeacon) = l.queue.filter fun x => x.payload.isBeacon && !x.sending :=
          List.filter_congr fun x hx => by
            cases hxs : x.sending
            · simp
            · simp [honly x hx hxs, hfb]
        rw [heq]
        exact hw

theorem unsent_ok {c : Counters} (h : c.ok) (f : TxFrame) : (c.unsent f).ok := by
  unfold Counters.unsent
  split
  · rw [Counters.ok_iff] at *
    simp [satAdd_le, h]
  · exact h

theorem leave_keeps (s : State) : s.Keeps { s with line := s.line.leave } := .withLine s Line.ok_leave

theorem dropStale_keeps (s : State) (f : TxFrame) : s.Keeps (s.dropStale f) := by
  unfold State.dropStale
  split
  · refine .withLine s fun h => Line.ok_map (fun x => ?_) (fun x => ?_) h
    all_goals split <;> rfl
  · exact (State.Keeps.withLine s fun h => Line.ok_of_sublist h List.erase_sublist).setCtr fun h => unsent_ok h f

theorem takeBeacon_keeps (s : State) (b : BeaconInfo) : s.Keeps (s.takeBeacon b) := by
  unfold State.takeBeacon
  dsimp only
  split
  · exact (rejoin_keeps s b).trans (choosePeer_keeps _)
  · exact rejoin_keeps s b

theorem loseStation_keeps (s : State) (n : Nat) : s.Keeps (s.loseStation n) := by
  have hroster : s.Keeps { s with line := { s.line with roster := s.line.roster.filter fun e => e.station != n } } :=
    .withLine s fun h => Line.ok_of_queue h rfl rfl
  have hlose : ∀ x : State, x.Keeps { x.loseQueued n with prn := x.prn.loseOrigin n } := fun x => by
    have hk := loseQueued_keeps x n
    exact ⟨hk.pending, hk.mem, hk.line, fun h => Printer.ok_of_sublist h List.filter_sublist, hk.notes, hk.bounded, hk.ctr,
      hk.slots, hk.dir, hk.pins⟩
  unfold State.loseStation
  dsimp only
  split
  · exact (hroster.trans (hlose _)).trans (choosePeer_keeps _)
  · exact hroster.trans (hlose _)

/-! ## An instant (R25 to R29) -/

theorem withLev_keeps (s : State) (lev : Level) : s.Keeps { s with lev := lev } := .free s _ _ _ _ _ _ lev _ _

/-- The timebase changes together with the analyser. -/
theorem withTbHar_keeps (s : State) {tb : Timebase} (h : s.tb.history.length ≤ 8 → tb.history.length ≤ 8) (har : Harmonic) :
    s.Keeps { s with tb := tb, har := har } := (State.Keeps.withTb s h).trans (withHar_keeps ..)

theorem takeBoundary_keeps (s : State) (st : TbState) : s.Keeps (s.takeBoundary st) :=
  .trans (.trans (.trans (withLev_keeps s _) (takeReport_keeps _ _ st)) (markEvent_keeps _))
    (withTbHar_keeps _ (Timebase.reference_history _ _) _)

theorem takeInstant_keeps (s : State) (i : InstantInputs) : s.Keeps (s.takeInstant i) := by
  have hstrobe : s.Keeps { s.passTo s.tb.nextStrobe with tb := s.tb.strobe } :=
    (passTo_keeps s s.tb.nextStrobe).trans (.withTb _ fun h => by rwa [passTo_tb] at h)
  have htaken : ∀ xs index, s.Keeps (State.analyse
      { ({ s.passTo s.tb.nextStrobe with tb := s.tb.strobe } : State).captureInstant (s.fitted i.samples) with
        lev := Level.take (({ s.passTo s.tb.nextStrobe with tb := s.tb.strobe } : State).captureInstant (s.fitted i.samples)).lev xs }
      xs index s.tb.state) := fun xs index =>
    .trans (.trans (hstrobe.trans (captureInstant_keeps _ _)) (withLev_keeps ..)) (analyse_keeps ..)
  unfold State.takeInstant
  dsimp only
  split
  · exact .trans (.trans (.trans (.trans (htaken _ _) (withTbHar_keeps _ (Timebase.watch_history _ _ _ _ _) _)) (hearBetween_keeps _ _))
      (takeBoundary_keeps _ _)) (trySettle_keeps _)
  · exact .trans (.trans (.trans (htaken _ _) (withTbHar_keeps _ (Timebase.watch_history _ _ _ _ _) _)) (trySettle_keeps _))
      (hearBetween_keeps _ _)

end Sys2Proof.Machine
end

section
/-!
PROOF. What every command keeps, and the laws of Safety.lean through every step (O2 to O6), with the state after reset (O7) and
the front command of a step (O1).
-/

namespace Sys2Proof.Machine

theorem withPins_keeps (s : State) (pins : Pins) : s.Keeps { s with pins := pins } := .free s _ _ pins _ _ _ _ _ _

theorem withPinsSup_keeps (s : State) (pins : Pins) {sup : Supply} (h : sup.opening = s.sup.opening) :
    s.Keeps { s with pins := pins, sup := sup } := (withPins_keeps s pins).trans (.withSup _ h)

/-! ## Commands of the supply and of survey control (chapter 1) -/

theorem exec_supplyWarn_keeps (s : State) : ∃ u, exec .supplyWarn s = .next u ∧ s.Keeps u := by
  refine ⟨_, rfl, ?_⟩
  have hpin : s.Keeps { s with pins := { s.pins with supplyWarn := true }, sup := { s.sup with releaseTimer := none } } :=
    withPinsSup_keeps s _ rfl
  split
  · exact hpin.trans (park_keeps _)
  · exact hpin

theorem exec_supplyWarnRelease_keeps (s : State) : ∃ u, exec .supplyWarnRelease s = .next u ∧ s.Keeps u := by
  refine ⟨_, rfl, withPinsSup_keeps s _ ?_⟩
  split <;> rfl

theorem exec_releaseTimer_keeps (i : RestartInputs) (s : State) : ∃ u, exec (.releaseTimer i) s = .next u ∧ s.Keeps u := by
  refine ⟨_, rfl, ?_⟩
  split
  · exact .refl s
  · rename_i t _
    have hlapse : s.Keeps { s.passTo t with sup := { (s.passTo t).sup with releaseTimer := none } } :=
      (passTo_keeps s t).trans (.withSup _ rfl)
    dsimp only
    split
    · exact hlapse.trans (restart_keeps ..)
    · exact hlapse.trans (.withSup _ rfl)

/-- A command that acts on some states alone. -/
theorem keeps_ite {s t : State} {c : Prop} [Decidable c] (h : c → s.Keeps t) : s.Keeps (if c then t else s) := by
  split
  · exact h ‹_›
  · exact .refl s

theorem exec_checkpointTimer_keeps (s : State) : ∃ u, exec .checkpointTimer s = .next u ∧ s.Keeps u := by
  refine ⟨_, rfl, ?_⟩
  split
  · exact keeps_ite fun _ => (passTo_keeps ..).trans (writeHeader_keeps _)
  · exact .refl s

/-! ## Commands of the measuring blocks (chapters 2 to 6) -/

theorem exec_instant_keeps (i : InstantInputs) (s : State) : ∃ u, exec (.instant i) s = .next u ∧ s.Keeps u := by
  refine ⟨_, rfl, ?_⟩
  split
  · exact takeInstant_keeps ..
  · exact hearBetween_keeps ..

theorem exec_crossingTimeout_keeps (s : State) : ∃ u, exec .crossingTimeout s = .next u ∧ s.Keeps u := by
  refine ⟨_, rfl, ?_⟩
  split
  · rename_i t _
    exact keeps_ite fun _ => ((passTo_keeps s (t + 3 * s.tb.period / 2)).trans (withTbHar_keeps _ (by exact id) _)).trans
      (trySettle_keeps _)
  · exact .refl s

theorem exec_peerSourceLapse_keeps (s : State) : ∃ u, exec .peerSourceLapse s = .next u ∧ s.Keeps u := by
  refine ⟨_, rfl, keeps_ite fun _ => ?_⟩
  split
  · exact (passTo_keeps ..).trans (choosePeer_keeps _)
  · exact choosePeer_keeps s

theorem exec_captureComplete_keeps (k : Fin 3) (s : State) : ∃ u, exec (.captureComplete k) s = .next u ∧ s.Keeps u := by
  refine ⟨_, rfl, ?_⟩
  split
  · exact keeps_ite fun _ => sealSlot_keeps s (List.mem_of_find?_eq_some ‹_›) _
  · exact .refl s

theorem exec_blockArithmeticDone_keeps (s : State) : ∃ u, exec .blockArithmeticDone s = .next u ∧ s.Keeps u := by
  refine ⟨_, rfl, ?_⟩
  split
  · exact keeps_ite fun _ => (withHar_keeps ..).trans (trySettle_keeps _)
  · exact .refl s

/-! ## Commands of the record store and the notes table (chapters 7 and 8) -/

/-- A write of the store port ends in a part that has supply. -/
theorem writeEnd_keeps {s t : State} (h : s.Keeps t) : s.Keeps (if s.mode = .off then s else t.afterWrite) := by
  split
  · exact .refl s
  · exact h.trans (afterWrite_keeps t)

theorem noteFrame_keeps (s : State) (a : Nat) (f : NoteFrame) : s.Keeps (s.noteFrame a f) := by
  unfold State.noteFrame
  split
  · exact .refl s
  · exact takeNote_keeps ..

theorem exec_noteExpiry_keeps (n : BitVec 16) (s : State) : ∃ u, exec (.noteExpiry n) s = .next u ∧ s.Keeps u := by
  refine ⟨_, rfl, ?_⟩
  split
  · exact keeps_ite fun _ => (passToSurvey_keeps ..).trans (.withNotes _ (notesOk_map (expireAt_site _)))
  · exact .refl s

/-! ## Commands of the print exchange (chapter 9) -/

theorem exec_askAnswerTimer_keeps (e : Fin 2) (s : State) : ∃ u, exec (.askAnswerTimer e) s = .next u ∧ s.Keeps u := by
  refine ⟨_, rfl, jobTimer_keeps s e _ _ fun x j hj => ?_⟩
  split
  · exact .run (.trans (withdraw_keeps x _) (askPrinter_keeps (by exact hj)))
  · exact endJob_keeps hj _

theorem exec_refreshTimer_keeps (e : Fin 2) (s : State) : ∃ u, exec (.refreshTimer e) s = .next u ∧ s.Keeps u :=
  ⟨_, rfl, jobTimer_keeps s e _ _ fun x j hj => .run (.trans (setJob_keeps (by exact hj)) (sendAsk_keeps ..))⟩

theorem exec_blockAnswerTimer_keeps (e : Fin 2) (s : State) : ∃ u, exec (.blockAnswerTimer e) s = .next u ∧ s.Keeps u := by
  refine ⟨_, rfl, jobTimer_keeps s e _ _ fun x j hj => ?_⟩
  split
  · split
    · exact (resendBlock_keeps hj ..).run
    · exact (abandon_keeps hj).run
  · exact .refl x

theorem exec_holdTimer_keeps (e : Fin 2) (s : State) : ∃ u, exec (.holdTimer e) s = .next u ∧ s.Keeps u := by
  refine ⟨_, rfl, jobTimer_keeps s e _ _ fun x j hj => ?_⟩
  split
  · exact (resendBlock_keeps hj ..).run
  · exact .refl x

theorem exec_goTimer_keeps (s : State) : ∃ u, exec .goTimer s = .next u ∧ s.Keeps u := by
  refine ⟨_, rfl, atTimer_keeps s _ fun x _ _ => ?_⟩
  split
  · exact .run (.trans (withPrn_keeps (by exact id)) (post_keeps ..))
  · exact .refl x

theorem exec_inactivityTimer_keeps (s : State) : ∃ u, exec .inactivityTimer s = .next u ∧ s.Keeps u := by
  refine ⟨_, rfl, atTimer_keeps s _ fun x _ _ => ?_⟩
  split
  · obtain ⟨he, hp⟩ := Printer.printing_mem ‹_›
    exact .run ((endPrinting_keeps he hp false).trans (post_keeps ..))
  · exact .refl x

theorem exec_linePrinted_keeps (s : State) : ∃ u, exec .linePrinted s = .next u ∧ s.Keeps u := by
  refine ⟨_, rfl, keeps_ite fun _ => .run ((fillBuffer_keeps s).trans ?_)⟩
  dsimp only [Exchange.andThen]
  split
  · exact .refl _
  · exact headPrinted_keeps _

/-! ## Commands of the line (chapter 10) -/

theorem exec_lineIdle_keeps (s : State) : ∃ u, exec .lineIdle s = .next u ∧ s.Keeps u := by
  refine ⟨_, rfl, keeps_ite fun hc => ?_⟩
  simp only [Bool.and_eq_true, Bool.not_eq_true'] at hc
  split
  · exact .withLine s fun h => Line.ok_start h hc.2 ..
  · exact .refl s

theorem exec_arbitrationLost_keeps (s : State) : ∃ u, exec .arbitrationLost s = .next u ∧ s.Keeps u := by
  refine ⟨_, rfl, ?_⟩
  split
  · split
    · exact (leave_keeps s).setCtr fun h => unsent_ok h _
    · exact .withLine s fun h => Line.ok_waitAgain h ‹_› (fun _ => rfl) fun _ => rfl
  · exact .refl s

theorem exec_bitError_keeps (s : State) : ∃ u, exec .bitError s = .next u ∧ s.Keeps u := by
  refine ⟨_, rfl, ?_⟩
  split
  · split
    · exact (leave_keeps s).setCtr fun h => unsent_ok h _
    · exact .withLine s fun h => Line.ok_waitAgain h ‹_› (fun _ => rfl) fun _ => rfl
  · exact .refl s

theorem exec_triggerStale_keeps (s : State) : ∃ u, exec .triggerStale s = .next u ∧ s.Keeps u := by
  refine ⟨_, rfl, ?_⟩
  split
  · exact keeps_ite fun _ => (passTo_keeps ..).trans (dropStale_keeps ..)
  · exact .refl s

theorem exec_beaconTimer_keeps (s : State) : ∃ u, exec .beaconTimer s = .next u ∧ s.Keeps u := by
  refine ⟨_, rfl, ?_⟩
  split
  · refine keeps_ite fun _ => .trans (.trans (passTo_keeps ..) (.withLine _ fun h => ?_)) (send_keeps ..)
    exact Line.ok_of_queue h rfl rfl
  · exact .refl s

theorem exec_rosterExpiry_keeps (n : BitVec 4) (s : State) : ∃ u, exec (.rosterExpiry n) s = .next u ∧ s.Keeps u := by
  refine ⟨_, rfl, ?_⟩
  split
  · exact keeps_ite fun _ => (passTo_keeps ..).trans (loseStation_keeps ..)
  · exact .refl s

/-! ## Every command, and a step -/

/-- Every command has a next state, and keeps the laws and what waits behind it. -/
theorem exec_next_keeps (c : Instr) (s : State) : ∃ u, exec c s = .next u ∧ s.Keeps u := by
  cases c with
  | powerOn i => exact ⟨_, rfl, restart_keeps ..⟩
  | supplyLoss => exact ⟨_, rfl, (cutOff_keeps s).trans (.free _ .off _ _ _ _ _ _ _ _)⟩
  | pinReset i =>
    refine ⟨_, rfl, ?_⟩
    split
    · exact .refl s
    · exact restart_keeps ..
  | supplyWarn => exact exec_supplyWarn_keeps s
  | supplyWarnRelease => exact exec_supplyWarnRelease_keeps s
  | releaseTimer i => exact exec_releaseTimer_keeps i s
  | surveyOpen rx f => exact ⟨_, rfl, keeps_ite fun _ => receive_keeps s rx none fun x _ => surveyOpen_keeps x _ f⟩
  | surveyClose rx n => exact ⟨_, rfl, receive_keeps s rx none fun x _ => surveyClose_keeps x _ _⟩
  | surveyTimeLimit => exact ⟨_, rfl, keeps_ite fun _ => (passToSurvey_keeps ..).trans (limitTest_keeps _)⟩
  | checkpointTimer => exact exec_checkpointTimer_keeps s
  | instant i => exact exec_instant_keeps i s
  | crossingTimeout => exact exec_crossingTimeout_keeps s
  | holdoverExpiry => exact ⟨_, rfl, keeps_ite fun _ => choosePeer_keeps s⟩
  | peerSourceLapse => exact exec_peerSourceLapse_keeps s
  | captureComplete k => exact exec_captureComplete_keeps k s
  | blockFull => exact ⟨_, rfl, keeps_ite fun _ => fillBlock_keeps s⟩
  | blockArithmeticDone => exact exec_blockArithmeticDone_keeps s
  | pageWriteComplete ok => exact ⟨_, rfl, writeEnd_keeps (pageDone_keeps s ok)⟩
  | systemWriteComplete ok => exact ⟨_, rfl, writeEnd_keeps (sysDone_keeps s ok)⟩
  | headerWriteComplete ok => exact ⟨_, rfl, writeEnd_keeps (headerDone_keeps s ok)⟩
  | recordRead rx r c => exact ⟨_, rfl, receive_keeps s rx none fun x _ => send_keeps ..⟩
  | note rx f => exact ⟨_, rfl, keeps_ite fun _ => receive_keeps s rx none fun x _ => noteFrame_keeps x _ f⟩
  | noteExpiry n => exact exec_noteExpiry_keeps n s
  | printRequest rx f => exact ⟨_, rfl, receive_keeps s rx none fun x hx => (printRequest_keeps hx _ f).run⟩
  | askAnswerTimer e => exact exec_askAnswerTimer_keeps e s
  | refreshTimer e => exact exec_refreshTimer_keeps e s
  | blockAnswerTimer e => exact exec_blockAnswerTimer_keeps e s
  | holdTimer e => exact exec_holdTimer_keeps e s
  | holdingLimit e => exact ⟨_, rfl, jobTimer_keeps s e _ _ fun x j hj => (abandon_keeps hj).run⟩
  | queued rx j => exact ⟨_, rfl, receive_keeps s rx none fun x _ => (originTake_keeps ..).run⟩
  | refused rx j r => exact ⟨_, rfl, receive_keeps s rx none fun x _ => (originTake_keeps ..).run⟩
  | go rx j => exact ⟨_, rfl, receive_keeps s rx none fun x _ => (originTake_keeps ..).run⟩
  | taken rx j k => exact ⟨_, rfl, receive_keeps s rx none fun x _ => (originTake_keeps ..).run⟩
  | held rx j k => exact ⟨_, rfl, receive_keeps s rx none fun x _ => (originTake_keeps ..).run⟩
  | drop rx j => exact ⟨_, rfl, receive_keeps s rx none fun x _ => .run ((originTake_keeps ..).trans (serviceTake_keeps ..))⟩
  | printAsk rx f => exact ⟨_, rfl, receive_keeps s rx none fun x _ => (serviceTake_keeps ..).run⟩
  | goTimer => exact exec_goTimer_keeps s
  | printBlock rx f => exact ⟨_, rfl, keeps_ite fun _ => receive_keeps s rx none fun x _ => (serviceTake_keeps ..).run⟩
  | inactivityTimer => exact exec_inactivityTimer_keeps s
  | linePrinted => exact exec_linePrinted_keeps s
  | paperOut => exact ⟨_, rfl, .run ((withPins_keeps s _).trans (holdOwnPending_keeps _))⟩
  | paperIn => exact ⟨_, rfl, .run ((withPins_keeps s _).trans (chooseJob_keeps _))⟩
  | ready l => exact ⟨_, rfl, withPins_keeps s _⟩
  | lineIdle => exact exec_lineIdle_keeps s
  | arbitrationLost => exact exec_arbitrationLost_keeps s
  | bitError => exact exec_bitError_keeps s
  | frameSent => exact ⟨_, rfl, leave_keeps s⟩
  | triggerStale => exact exec_triggerStale_keeps s
  | badFrame b => exact ⟨_, rfl, .refl s⟩
  | stationConflict => exact ⟨_, rfl, keeps_ite fun _ => conflict_keeps s⟩
  | otherFrame rx k => exact ⟨_, rfl, receive_keeps s rx none fun x _ => .refl x⟩
  | beacon rx f => exact ⟨_, rfl, receive_keeps s rx _ fun x _ => takeBeacon_keeps ..⟩
  | trigger rx f => exact ⟨_, rfl, hearTrigger_keeps s rx f⟩
  | stationQuery rx => exact ⟨_, rfl, receive_keeps s rx none fun x _ => send_keeps ..⟩
  | beaconTimer => exact exec_beaconTimer_keeps s
  | rosterExpiry n => exact exec_rosterExpiry_keeps n s

theorem exec_keeps {c : Instr} {s t : State} (h : exec c s = .next t) : s.Keeps t := by
  obtain ⟨u, hu, hk⟩ := exec_next_keeps c s
  obtain rfl : u = t := Host.Outcome.next.inj (hu.symm.trans h)
  exact hk

/-- Settles O1: by the definition of a step, along what waits. -/
theorem stepRunsFrontCommand : Obligations.StepRunsFrontCommand := by
  refine ⟨fun c rest s h => ?_, fun s h => ?_⟩ <;> rw [step, h]

/-- Settles O2. -/
theorem commandsLeaveTheQueue : Obligations.CommandsLeaveTheQueue := fun _ _ _ h => (exec_keeps h).pending

/-- A step keeps every law from itself alone: what waits is no part of any. -/
theorem step_keeps {s t : State} (h : step s = .next t) :
    (s.memoryOk → t.memoryOk) ∧ (s.lineOk → t.lineOk) ∧ (s.prn.ok → t.prn.ok) ∧ (notesOk s.notes → notesOk t.notes) ∧
      (s.bounded → t.bounded) ∧ (s.ctr.ok → t.ctr.ok) ∧ (slotsOk s.cap.slots → slotsOk t.cap.slots) ∧
      (s.directoryOk → t.directoryOk) ∧ (s.pinsOk → t.pinsOk) := by
  obtain ⟨hfront, hidle⟩ := stepRunsFrontCommand
  cases hp : s.pending with
  | nil =>
    rw [hidle s hp] at h
    obtain rfl := Host.Outcome.next.inj h
    have k := tick_keeps s
    exact ⟨k.mem, k.line, k.prn, k.notes, k.bounded, k.ctr, k.slots, k.dir, k.pins⟩
  | cons c rest =>
    rw [hfront c rest s hp] at h
    have k := exec_keeps h
    exact ⟨k.mem, k.line, k.prn, k.notes, k.bounded, k.ctr, k.slots, k.dir, k.pins⟩

/-- Settles O3. -/
theorem memoryFormKept : Obligations.MemoryFormKept := fun _ _ hs h => (step_keeps h).1 hs

/-- Settles O4. -/
theorem transmitQueueKept : Obligations.TransmitQueueKept := fun _ _ hs h =>
  have ⟨_, line, _⟩ := step_keeps h
  line hs

/-- Settles O5. -/
theorem printerServiceKept : Obligations.PrinterServiceKept := fun _ _ hs h =>
  have ⟨_, _, prn, _⟩ := step_keeps h
  prn hs

/-- Settles O6: each law from itself alone, as the operations keep them. -/
theorem tablesKeepTheirSizes : Obligations.TablesKeepTheirSizes := fun _ _ h =>
  have ⟨_, _, _, tables⟩ := step_keeps h
  tables

/-- Settles O7: the store of the reset state has no live entry, and its system region no entry. -/
theorem resetIsSound : Obligations.ResetIsSound := by
  have hregion : sysListsOk resetRegion := by
    intro x hx d hd
    simp only [resetRegion, List.mem_cons, List.not_mem_nil, or_false] at hx
    rcases hx with rfl | rfl | rfl | rfl | rfl <;> cases hd
  refine ⟨⟨.nil, fun _ h => nomatch h⟩, emptyLine_ok .., freshPrinter_ok true, ⟨Nat.zero_le _, Nat.zero_le _⟩,
    (Counters.ok_iff _).2 (by simp [State.reset]), ⟨Nat.zero_le _, Nat.zero_le _, Nat.zero_le _, by decide⟩, fresh_slotsOk,
    Store.directoryOk_empty rfl hregion, (pinsOk_iff _).2 ⟨fun _ => rfl, Store.pinsOk_nil .nil ?_ ?_⟩⟩
  all_goals exact fun _ h => nomatch h

end Sys2Proof.Machine
end

section
/-!
PROOF. The small commands of the supply and of the beacon, the parameters of a survey, the strobes of a period, and the choice of
a peer.
-/

namespace Sys2Proof.Machine

/-! ## The supply and the beacon timer -/

/-- Settles O11: the cut state holds nothing volatile, and the loss only takes the supply away besides. -/
theorem supplyLossStopsThePart : Obligations.SupplyLossStopsThePart := fun s =>
  ⟨{ s.cutOff with mode := .off }, rfl, rfl, rfl, rfl, rfl, rfl, rfl, rfl, rfl, rfl, rfl, rfl, rfl, rfl, rfl, rfl, rfl, rfl⟩

/-- Settles O58. -/
theorem beaconsEverySecond : Obligations.BeaconsEverySecond := by
  intro s d hm hd
  change execBeaconTimer s = _
  simp [execBeaconTimer, hd, State.isRunning, hm]

/-- Settles O13: in PARKED the part does not run, so that SUPPLY_WARN asks for no parking. -/
theorem releaseTimerStartsAndIsCancelled : Obligations.ReleaseTimerStartsAndIsCancelled := by
  intro s hm
  refine ⟨fun hw => ?_, ?_, fun i d hd hp => ?_⟩
  · change execSupplyWarnRelease s = _
    simp [execSupplyWarnRelease, hm, hw, State.inMs]
  · change execSupplyWarn s = _
    simp [execSupplyWarn, State.isRunning, hm]
  · change execReleaseTimer i s = _
    unfold execReleaseTimer
    rw [hd]
    have busy : ¬State.parkingDone { s.passTo d with sup := { (s.passTo d).sup with releaseTimer := none } } = true := by
      simpa [State.parkingDone] using hp
    exact congrArg _ ((if_neg busy).trans (by simp))

/-! ## The parameters in force (R3) -/

theorem clamp_ge {lo hi v : Nat} (h : lo ≤ hi) : lo ≤ clamp lo hi v := by
  unfold clamp
  split_ifs <;> omega

theorem clamp_le {lo hi v : Nat} (h : lo ≤ hi) : clamp lo hi v ≤ hi := by
  unfold clamp
  split_ifs <;> omega

/-- A value outside its range takes the nearer limit, and one inside stays. -/
theorem clamp_limited {lo hi : Nat} (h : lo ≤ hi) (v : Nat) :
    (v < lo → clamp lo hi v = lo) ∧ (lo ≤ v → v ≤ hi → clamp lo hi v = v) ∧ (hi < v → clamp lo hi v = hi) := by
  unfold clamp
  split_ifs <;> omega

theorem getElem?_keepText (t : List Byte) {i : Nat} {c : Byte} (h : t[i]? = some c) :
    (keepText t)[i]? = some (if 0x20 ≤ c ∧ c ≤ 0x7E then c else 0x3F) := by
  simp [keepText, h, BitVec.le_def]

/-- Settles O14: each parameter is `clamp` of its field. -/
theorem parametersInForce : Obligations.ParametersInForce := by
  intro f p
  have un := clamp_limited (lo := 500) (hi := 5000) (by decide) f.un.toNat
  have ts := clamp_limited (lo := 5000) (hi := 9500) (by decide) f.ts.toNat
  have ti := clamp_limited (lo := 100) (hi := 2000) (by decide) f.ti.toNat
  have tw := clamp_limited (lo := 10500) (hi := 15000) (by decide) f.tw.toNat
  have h := clamp_limited (lo := 50) (hi := 500) (by decide) f.h.toNat
  have k := clamp_limited (lo := 1) (hi := 3000) (by decide) f.k.toNat
  have qh := clamp_limited (lo := 25) (hi := 90) (by decide) f.qh.toNat
  have hours := clamp_limited (lo := 0) (hi := 23) (by decide) f.hours.toNat
  have minutes := clamp_limited (lo := 0) (hi := 59) (by decide) f.minutes.toNat
  have seconds := clamp_limited (lo := 0) (hi := 59) (by decide) f.seconds.toNat
  have label : ∀ (i : Nat) (c : Byte), f.label[i]? = some c →
      (keepText f.label)[i]? = some (if 0x20 ≤ c ∧ c ≤ 0x7E then c else 0x3F) := fun i c => getElem?_keepText f.label
  have hz : (p.hz = 50 ∨ p.hz = 60) ∧ (f.hz.toNat < 55 → p.hz = 50) ∧ (55 ≤ f.hz.toNat → p.hz = 60) := by
    change (hzOf _ = 50 ∨ hzOf _ = 60) ∧ (_ → hzOf _ = 50) ∧ (_ → hzOf _ = 60)
    unfold hzOf
    split_ifs <;> omega
  have on (v : Byte) : (v.toNat != 0) = true ↔ v ≠ 0 := by simp [BitVec.toNat_eq]
  have flag : wasClamped f = false ↔ rawFields f = p.inForce := by simp [wasClamped, p]
  refine ⟨⟨clamp_ge (by decide), clamp_le (by decide)⟩, hz.1, ⟨clamp_ge (by decide), clamp_le (by decide)⟩,
    ⟨clamp_ge (by decide), clamp_le (by decide)⟩, ⟨clamp_ge (by decide), clamp_le (by decide)⟩,
    ⟨clamp_ge (by decide), clamp_le (by decide)⟩, ⟨clamp_ge (by decide), clamp_le (by decide)⟩,
    ⟨clamp_ge (by decide), clamp_le (by decide)⟩, clamp_le (lo := 0) (by decide), clamp_le (lo := 0) (by decide),
    clamp_le (lo := 0) (by decide), ?_, ?_, ?_, ?_,
    ⟨un, ts, ti, tw, h, k, qh, hours, minutes, seconds⟩, hz.2.1, hz.2.2, on _, on _, rfl, by simp [p, Params.ofFrame, keepText],
    label, flag.trans ?_⟩
  · exact Nat.add_le_add (clamp_le (hi := 9500) (by decide)) (clamp_le (hi := 500) (by decide))
  · exact tsub_le_tsub (clamp_ge (lo := 10500) (by decide)) (clamp_le (hi := 500) (by decide))
  · have ti' := clamp_le (lo := 100) (hi := 2000) (v := f.ti.toNat) (by decide)
    have h' := clamp_le (lo := 50) (hi := 500) (v := f.h.toNat) (by decide)
    have ts' := clamp_ge (lo := 5000) (hi := 9500) (v := f.ts.toNat) (by decide)
    change clamp 100 2000 _ + clamp 50 500 _ < clamp 5000 9500 _
    omega
  · have low := clamp_ge (lo := 25) (hi := 90) (v := f.qh.toNat) (by decide)
    have high := clamp_le (lo := 25) (hi := 90) (v := f.qh.toNat) (by decide)
    change 480 ≤ 1920 * clamp 25 90 _ / 100 ∧ 1920 * clamp 25 90 _ / 100 ≤ 1728
    omega
  · simp [rawFields, Params.inForce, eq_comm]

/-! ## The strobes of a period (R25) -/

/-- A step takes what it does not leave in the fraction. -/
theorem stepOf_spec (p : Nat) {f : Nat} (h : f < 128) : 128 * (stepOf p f).1 + (stepOf p f).2 = p + f ∧ (stepOf p f).2 < 128 := by
  unfold stepOf
  split_ifs <;> simp only <;> omega

/-- In 128ths of a tick, each strobe moves the next one by P. -/
theorem repeat_strobe (tb : Timebase) (h : tb.frac < 128) (n : Nat) :
    let r := Nat.repeat Timebase.strobe n tb
    128 * r.nextStrobe + r.frac = 128 * tb.nextStrobe + tb.frac + n * tb.periodNext ∧ r.frac < 128 ∧ r.periodNext = tb.periodNext ∧
      (0 < n → r.period = tb.periodNext) := by
  induction n with
  | zero => exact ⟨by simp [Nat.repeat], h, rfl, fun h => absurd h (by decide)⟩
  | succ n ih =>
    obtain ⟨moved, frac, period, -⟩ := ih
    obtain ⟨step, small⟩ := stepOf_spec tb.periodNext frac
    refine ⟨?_, ?_, by rw [Nat.repeat, strobe_periodNext, period], fun _ => by rw [Nat.repeat, strobe_period, period]⟩
    · simp only [Nat.repeat, Timebase.strobe, period, Nat.succ_mul]
      omega
    · simpa only [Nat.repeat, Timebase.strobe, period] using small

/-- Settles O20: 128 strobes move the next one by 128 P in 128ths of a tick, which leaves the fraction where it was. -/
theorem strobesSpanThePeriod : Obligations.StrobesSpanThePeriod := by
  intro tb h
  have span := repeat_strobe tb h 128
  generalize Nat.repeat Timebase.strobe 128 tb = r at span ⊢
  obtain ⟨moved, frac, -, period⟩ := span
  change _ = _ + tb.periodNext ∧ _ ∧ _ = tb.periodNext
  exact ⟨by omega, by omega, period (by decide)⟩

/-! ## The choice of a peer (R37) -/

theorem RosterEntry.qualifies_iff (e : RosterEntry) (now hz : Nat) :
    e.qualifies now hz = true ↔ ∃ b, e.beacon = some b ∧ b.tbState = 1 ∧ e.fresh now = true ∧ freqInRange hz b.freq = true := by
  cases h : e.beacon <;> simp [RosterEntry.qualifies, h, TbState.code, and_assoc]

/-- Settles O23: the choice is the head of those that qualify, and the roster rises. -/
theorem peerChoiceIsLowestQualifying : Obligations.PeerChoiceIsLowestQualifying := by
  refine ⟨fun s hn e he b hb => ?_, fun s n f rising hc => ?_⟩
  · cases hf : s.line.roster.find? fun e => e.qualifies s.clock.now s.hdr.params.hz with
    | none =>
      have := List.find?_eq_none.1 hf e he
      rw [RosterEntry.qualifies_iff] at this
      grind
    | some x =>
      have hq : x.qualifies s.clock.now s.hdr.params.hz = true := by simpa using List.find?_some hf
      obtain ⟨b, hb, -⟩ := (x.qualifies_iff _ _).1 hq
      simp [State.peerChoice, hf, hb] at hn
  · unfold State.peerChoice at hc
    split at hc
    next e hf =>
      have hq : e.qualifies s.clock.now s.hdr.params.hz = true := by simpa using List.find?_some hf
      obtain ⟨b, hb, state, fresh, range⟩ := (e.qualifies_iff _ _).1 hq
      simp only [hb, Option.map_some, Option.some.injEq, Prod.mk.injEq] at hc
      obtain ⟨rfl, rfl⟩ := hc
      refine ⟨e, b, List.mem_of_find?_eq_some hf, rfl, hb, rfl, state, range, fresh, fun e' he' hq => ?_⟩
      obtain ⟨-, before, after, split, earlier⟩ := List.find?_eq_some_iff_append.1 hf
      rw [split] at rising he'
      obtain ⟨-, tail, -⟩ := List.pairwise_append.1 rising
      rcases List.mem_append.1 he' with hin | hin
      · exact absurd hq (by simpa using earlier e' hin)
      · rcases List.mem_cons.1 hin with rfl | hin
        · exact le_rfl
        · exact ((List.pairwise_cons.1 tail).1 e' hin).le
    next => cases hc

/-! ## A store that is too short (R128) -/

/-- The candidates are walked to the end in vain where all their pages together fall short. -/
theorem chooseReclaim_short {need free : Nat} {ok : Bool} {cands : List Entry}
    (h : free + (cands.map fun e => e.img.pages.length).sum < need) : chooseReclaim need free ok cands = none := by
  induction cands generalizing free ok with
  | nil => simp_all [chooseReclaim]
  | cons e rest ih =>
    simp only [List.map_cons, List.sum_cons] at h
    rw [chooseReclaim, if_neg (by simp; omega), ih (by omega)]
    rfl

/-- Settles O32. -/
theorem shortStoreRefuses : Obligations.ShortStoreRefuses := by
  intro st now quota q hq short
  have none : st.makeRoom quota q = none := by
    unfold Store.makeRoom
    dsimp only
    split
    · rfl
    · rw [if_neg (fun h => hq h.1), chooseReclaim_short short]
  rw [Store.create, none]

end Sys2Proof.Machine
end

section
/-!
PROOF. The transmit queue: what handing over, withdrawing, starting, failing and growing stale do to it.
-/

namespace Sys2Proof.Machine

/-! ## The lowest of a sorted list -/

/-- An element that no other one undercuts stands at the head of the list it is inserted into. -/
theorem insertBy_of_le {α : Type} (key : α → Nat) {a : α} {l : List α} (h : ∀ b ∈ l, key a ≤ key b) :
    insertBy key a l = a :: l := by
  cases l with
  | nil => rfl
  | cons b l => exact if_pos (h b (by simp))

/-- The sort is stable: of the elements with the lowest key the earliest stands at the head. -/
theorem head?_sortBy {α : Type} (key : α → Nat) {before after : List α} {a : α} (hb : ∀ b ∈ before, key a < key b)
    (ha : ∀ b ∈ after, key a ≤ key b) : (sortBy key (before ++ a :: after)).head? = some a := by
  induction before with
  | nil =>
    have : sortBy key (a :: after) = a :: sortBy key after := insertBy_of_le key fun b h => ha b (mem_sortBy.1 h)
    simp [this]
  | cons b before ih =>
    have tail := ih fun c h => hb c (by simp [h])
    have step : sortBy key (b :: before ++ a :: after) = insertBy key b (sortBy key (before ++ a :: after)) := rfl
    rw [step]
    cases hs : sortBy key (before ++ a :: after) with
    | nil => simp [hs] at tail
    | cons c rest =>
      obtain rfl : c = a := by simpa [hs] using tail
      rw [insertBy, if_neg (by have := hb b (by simp); omega)]
      rfl

theorem modify_middle {α : Type} (f : α → α) (before after : List α) (a : α) :
    (before ++ a :: after).modify before.length f = before ++ f a :: after := by
  induction before with
  | nil => rfl
  | cons b before ih => exact congrArg (b :: ·) ih

/-- Where a frame stands that all before it exceed and none after it undercuts. -/
theorem nextToSend_middle {before after : List TxFrame} {f : TxFrame}
    (hb : ∀ g ∈ before, f.payload.priority < g.payload.priority) (ha : ∀ g ∈ after, f.payload.priority ≤ g.payload.priority) :
    nextToSend (before ++ f :: after) = some before.length := by
  have places : List.range (before ++ f :: after).length =
      List.range before.length ++ before.length :: (List.range after.length).map fun i => before.length + (i + 1) := by
    rw [List.length_append, List.range_add, List.length_cons, List.range_succ_eq_map]
    simp
  rw [nextToSend, places]
  apply head?_sortBy
  · intro i hi
    rw [List.mem_range] at hi
    simpa [List.getElem?_append_left hi, hi] using hb _ (List.getElem_mem hi)
  · simp only [List.mem_map, List.mem_range, forall_exists_index, and_imp]
    rintro _ i hi rfl
    simpa [hi] using ha _ (List.getElem_mem hi)

/-- Settles O54. -/
theorem lowestPriorityStarts : Obligations.LowestPriorityStarts := by
  intro s before after f hm idle hq hb ha
  have quiet : s.line.queue.any (·.sending) = false := by simpa using idle
  change execLineIdle s = _
  simp only [execLineIdle, State.isRunning, hm, quiet]
  simp only [hq, nextToSend_middle hb ha, modify_middle]
  rfl

/-! ## Handing over and withdrawing (R185, R186, R190) -/

theorem Payload.priority_le (p : Payload) : p.priority ≤ 4 := by
  cases p <;> simp [Payload.priority]

theorem Payload.priority_of_isBeacon {p : Payload} (h : p.isBeacon = true) : p.priority = 4 := by
  cases p <;> simp_all [Payload.isBeacon, Payload.priority]

theorem displace_none {p : Nat} {q : List TxFrame} (h : ∀ f ∈ q, f.sending = false → f.payload.priority ≤ p) : displace p q = none := by
  unfold displace
  refine if_neg ?_
  simpa using fun f hf hp => by
    by_contra hs
    have := h f hf (by simpa using hs)
    omega

/-- The youngest frame of higher priority number that waits gives way. -/
theorem displace_youngest {p : Nat} {older younger : List TxFrame} {f : TxFrame} (hs : f.sending = false)
    (hp : p < f.payload.priority) (hy : ∀ g ∈ younger, g.sending = false → g.payload.priority ≤ p) :
    displace p (older ++ f :: younger) = some (older ++ younger) := by
  unfold displace
  rw [if_pos (by simp [hs, hp])]
  have skip : ∀ g ∈ younger.reverse, ¬(decide (p < g.payload.priority) && !g.sending) = true := by
    intro g hg
    have := hy g (by simpa using hg)
    simp only [Bool.and_eq_true, decide_eq_true_eq, Bool.not_eq_true']
    rintro ⟨h, hs⟩
    have := this hs
    omega
  rw [List.reverse_append, List.reverse_cons, List.append_assoc, List.eraseP_append_right _ skip]
  simp [hs, hp]

/-- The withdrawal leaves what it does not name, and of what it names what is under transmission, not to be tried again. -/
theorem withdraw_spec (l : Line) (which : Payload → Bool) :
    (l.withdraw which).queue.filter (fun f => !which f.payload) = l.queue.filter (fun f => !which f.payload) ∧
      (l.withdraw which).queue.filter (fun f => which f.payload) =
        (l.queue.filter fun f => which f.payload && f.sending).map (fun f => { f with noRetry := true }) ∧
      (l.withdraw which).queue.length = (l.queue.filter fun f => !which f.payload || f.sending).length := by
  unfold Line.withdraw
  dsimp only
  generalize l.queue = q
  induction q with
  | nil => simp
  | cons f q ih =>
    obtain ⟨other, named, length⟩ := ih
    cases hw : which f.payload <;> cases hs : f.sending <;> simp_all

/-- Settles O9. -/
theorem handingOverAFrame : Obligations.HandingOverAFrame := by
  refine ⟨fun s p a hp => ?_, fun l which => ⟨rfl, withdraw_spec l which⟩, fun s p a hp => ?_⟩
  · intro others
    have same : (s.line.queue.filter fun f => !(f.payload.isBeacon && !f.sending)) = others :=
      List.filter_congr fun f _ => by cases f.payload.isBeacon <;> cases f.sending <;> rfl
    have none : displace p.priority others = none := displace_none fun f _ _ => by
      rw [Payload.priority_of_isBeacon hp]
      exact f.payload.priority_le
    have sent (hm : s.line.muted = false) : s.send p a =
        { s with line := { s.line with queue := joinQueue others ⟨p, a, s.clock.now, 0, false, false⟩ } } := by
      rw [State.send, Line.handOver, if_neg (by simp [hm]), if_pos hp, same]
    refine ⟨fun hm => send_of_muted hm p a, fun hm room => (sent hm).trans ?_, fun hm full => (sent hm).trans ?_⟩
    · rw [joinQueue, if_pos room]
    · rw [joinQueue, if_neg (Nat.not_lt.2 full), none]
  · refine ⟨fun hm => send_of_muted hm p a, fun hm room => ?_, fun hm full low => ?_, fun older younger f hm full hq hs higher low => ?_⟩
    · exact congrArg (fun l => { s with line := l }) (handOver_room hm hp room _ a)
    · have kept : joinQueue s.line.queue ⟨p, a, s.clock.now, 0, false, false⟩ = s.line.queue := by
        rw [joinQueue, if_neg (Nat.not_lt.2 full), displace_none low]
      rw [State.send, Line.handOver, if_neg (by simp [hm]), if_neg (by simp [hp])]
      dsimp only
      rw [kept]
    · rw [hq] at full
      have young := displace_youngest (older := older) hs higher low
      simp [State.send, Line.handOver, hm, hp, joinQueue, hq, young, -List.length_append, Nat.not_lt.2 full]

/-! ## The end of an attempt (R182, R183, R88) -/

section
variable {before after : List TxFrame} {f : TxFrame}

theorem eraseP_middle {p : TxFrame → Bool} (hf : p f = true) (hb : ∀ g ∈ before, p g = false) :
    (before ++ f :: after).eraseP p = before ++ after := by
  rw [List.eraseP_append_right _ (by simpa using hb), List.eraseP_cons_of_pos hf]

theorem find?_middle {p : TxFrame → Bool} (hf : p f = true) (hb : ∀ g ∈ before, p g = false) :
    (before ++ f :: after).find? p = some f := by
  rw [List.find?_append, List.find?_eq_none.2 (by simpa using hb), List.find?_cons_of_pos hf]
  rfl

/-- Of the queue only the frame under transmission changes. -/
theorem change_middle {l : Line} (hq : l.queue = before ++ f :: after) (hf : f.sending = true)
    (ho : ∀ g ∈ before ++ after, g.sending = false) (g : TxFrame → TxFrame) :
    l.change g = { l with queue := before ++ g f :: after } := by
  have still : ∀ part : List TxFrame, (∀ x ∈ part, x.sending = false) → (part.map fun x => if x.sending then g x else x) = part :=
    fun part h => by simpa using List.map_congr_left (g := id) fun x hx => by simp [h x hx]
  simp only [List.mem_append] at ho
  simp [Line.change, hq, hf, still before fun x h => ho x (.inl h), still after fun x h => ho x (.inr h)]

end

/-- Settles O55: the frame under transmission is the one that `Line.current`, `Line.leave` and `Line.change` reach. -/
theorem attemptsEndAndTriggersGoStale : Obligations.AttemptsEndAndTriggersGoStale := by
  refine ⟨fun s before after f hq hf ho => ?_, fun s before after f hm hq hb ht hn => ?_⟩
  · intro later left
    have current : s.line.current = some f := by
      rw [Line.current, hq, find?_middle hf fun g hg => ho g (by simp [hg])]
    have leave : s.line.leave = { s.line with queue := before ++ after } := by
      rw [Line.leave, hq, eraseP_middle hf fun g hg => ho g (by simp [hg])]
    have waits : (f.payload.isBeacon && s.line.queue.any fun x => x.payload.isBeacon && !x.sending) = true ↔ later := by
      rw [hq, Bool.and_eq_true]
      refine and_congr_right fun _ => ?_
      simp only [List.any_eq_true, List.mem_append, List.mem_cons, Bool.and_eq_true, Bool.not_eq_true'] at ho ⊢
      constructor
      · rintro ⟨g, hg | rfl | hg, hb, hs⟩
        · exact ⟨g, .inl hg, hb⟩
        · simp [hf] at hs
        · exact ⟨g, .inr hg, hb⟩
      · rintro ⟨g, hg, hb⟩
        exact ⟨g, by tauto, hb, ho g hg⟩
    have again (g : TxFrame → TxFrame) (h : ¬later) : s.line.waitAgain f g = { s.line with queue := before ++ g f :: after } := by
      rw [Line.waitAgain, if_neg (mt waits.1 h), change_middle hq hf ho]
    have replaced (g : TxFrame → TxFrame) (h : later) : s.line.waitAgain f g = { s.line with queue := before ++ after } := by
      rw [Line.waitAgain, if_pos (waits.2 h), leave]
    have spentNot (hn : f.noRetry = false) (ha : f.attempts < 7) (ht : f.payload.isTrigger = false) :
        f.spent s.clock.now = false := by simp [TxFrame.spent, hn, ht]; omega
    have lost : execArbitrationLost s = .next (if f.noRetry && f.payload.isTrigger then
          { s with line := s.line.leave, ctr := s.ctr.unsent f }
        else { s with line := s.line.waitAgain f fun f => { f with sending := false } }) := by
      simp only [execArbitrationLost, current]
    have failed : execBitError s = .next (if f.spent s.clock.now then { s with line := s.line.leave, ctr := s.ctr.unsent f }
        else { s with line := s.line.waitAgain f fun f => { f with sending := false, attempts := f.attempts + 1 } }) := by
      simp only [execBitError, current]
    have beacon (h : later) : f.payload.isTrigger = false := by
      have := h.1
      cases hp : f.payload <;> simp_all [Payload.isBeacon, Payload.isTrigger]
    refine ⟨?_, fun h hl => lost.trans ?_, fun hn ha ht hl => failed.trans ?_, fun hn ht => lost.trans ?_,
      fun hl => ⟨lost.trans ?_, fun hn ha => failed.trans ?_⟩, fun h => failed.trans ?_⟩
    · exact congrArg (fun l => Host.Outcome.next { s with line := l }) leave
    · rw [if_neg (by rcases h with h | h <;> simp [h]), again _ hl]
    · rw [if_neg (by simp [spentNot hn ha ht]), again _ hl]
    · simp [hn, ht, leave, left, Counters.unsent]
    · rw [if_neg (by simp [beacon hl]), replaced _ hl]
    · rw [if_neg (by simp [spentNot hn ha (beacon hl)]), replaced _ hl]
    · have spent : f.spent s.clock.now = true := by
        rcases h with h | h <;> simp [TxFrame.spent, h]
      simp [spent, leave, left, Counters.unsent]
  · have found : s.line.queue.find? (fun f => f.payload.isTrigger && !f.noRetry) = some f := by
      rw [hq, find?_middle (by simp [ht, hn]) fun g hg => by simp [hb g hg]]
    have stale : execTriggerStale s = .next ((s.passTo (f.queuedAt + ms 40)).dropStale f) := by
      simp [execTriggerStale, found, State.isRunning, hm]
    refine ⟨fun hs => stale.trans ?_, fun hs ho => stale.trans ?_⟩
    · have other : f ∉ before := fun h => by simp [hb f h] at ht
      have erased : s.line.queue.erase f = before ++ after := by
        rw [hq, List.erase_append_right _ other, List.erase_cons_head]
      simp [State.dropStale, hs, erased, Counters.unsent, ht]
    · simp [State.dropStale, hs, change_middle hq hs ho]

end Sys2Proof.Machine
end

section
/-!
PROOF. The service's choice among the waiting entries, the answer to RECORD_READ, and the expiry of an observation.
-/

namespace Sys2Proof.Machine

/-! ## The choice of the printer service (R175) -/

/-- The origin is passed over: it has the last 3 grants, and an entry of another origin waits (R175 step 2). -/
def Printer.passedOver (p : Printer) (o : Party) : Prop :=
  p.grants = [o, o, o] ∧ ∃ y ∈ p.queue, y.printing = false ∧ y.origin ≠ o

theorem Printer.barred_eq_some (p : Printer) (o : Party) :
    p.barred (p.queue.filter fun e => !e.printing) = some o ↔ p.passedOver o := by
  unfold Printer.barred Printer.passedOver
  split
  next a b c h =>
    simp only [h, List.any_eq_true, List.mem_filter, Option.ite_none_right_eq_some, bne_iff_ne]
    constructor
    · rintro ⟨⟨rfl, rfl, y, ⟨hy, hp⟩, ho⟩, ha⟩
      obtain rfl := Option.some.inj ha
      exact ⟨rfl, y, hy, by simpa using hp, ho⟩
    · rintro ⟨hg, y, hy, hp, ho⟩
      obtain ⟨rfl, rfl, rfl⟩ : a = o ∧ b = o ∧ c = o := by simpa using hg
      exact ⟨⟨rfl, rfl, y, ⟨hy, by simpa using hp⟩, ho⟩, rfl⟩
  next h =>
    simp only [reduceCtorEq, false_iff]
    exact fun hg => h _ _ _ hg.1

/-- An entry from which the choice is made: it waits, and its origin is not passed over. -/
def Printer.eligible (p : Printer) (e : QueueEntry) : Bool :=
  !e.printing && p.barred (p.queue.filter fun e => !e.printing) != some e.origin

theorem Printer.eligible_iff (p : Printer) (e : QueueEntry) : p.eligible e = true ↔ e.printing = false ∧ ¬p.passedOver e.origin := by
  simp [Printer.eligible, ← Printer.barred_eq_some]

/-- The choice is the first eligible entry of effective class URGENT, or else the first eligible one. -/
theorem Printer.choice_eq (p : Printer) (now : Nat) :
    p.choice now = (p.queue.find? fun e => p.eligible e && e.effective now).or (p.queue.find? p.eligible) := by
  have left : ((p.queue.filter fun e => !e.printing).filter fun e => p.barred (p.queue.filter fun e => !e.printing) != some e.origin) =
      p.queue.filter p.eligible := by
    rw [List.filter_filter]
    exact List.filter_congr fun e _ => Bool.and_comm ..
  unfold Printer.choice
  dsimp only
  rw [left, List.find?_filter, List.head?_filter]
  simp only [Bool.decide_and, Bool.decide_eq_true]
  cases p.queue.find? fun e => p.eligible e && e.effective now <;> rfl

/-- Of the entries that wait one is eligible: an origin is passed over only for another that waits. -/
theorem Printer.exists_eligible {p : Printer} {e : QueueEntry} (he : e ∈ p.queue) (hp : e.printing = false) :
    ∃ x ∈ p.queue, p.eligible x = true := by
  by_cases h : p.passedOver e.origin
  · obtain ⟨grants, y, hy, hw, other⟩ := h
    refine ⟨y, hy, (p.eligible_iff y).2 ⟨hw, fun ⟨again, _⟩ => other ?_⟩⟩
    simpa using (grants.symm.trans again).symm
  · exact ⟨e, he, (p.eligible_iff e).2 ⟨hp, h⟩⟩

/-- Settles O48. -/
theorem choiceFollowsItsOrder : Obligations.ChoiceFollowsItsOrder := by
  refine ⟨fun p now none e he => ?_, fun p now e chosen => ?_⟩
  · rw [Printer.choice_eq, Option.or_eq_none_iff] at none
    by_contra waits
    obtain ⟨x, hx, eligible⟩ := Printer.exists_eligible he (by simpa using waits)
    exact List.find?_eq_none.1 none.2 x hx eligible
  · rw [Printer.choice_eq] at chosen
    have urgent (h : e.effective now = false) : ∀ x ∈ p.queue, p.eligible x = true → x.effective now = false := by
      intro x hx hel
      by_contra heff
      cases hf : p.queue.find? fun e => p.eligible e && e.effective now with
      | none => simpa [hel, heff] using List.find?_eq_none.1 hf x hx
      | some y =>
        obtain rfl : y = e := by simpa [hf] using chosen
        have := List.find?_some hf
        simp_all
    have first : p.eligible e = true ∧ ∃ before after, p.queue = before ++ e :: after ∧
        ∀ x ∈ before, p.eligible x = true → x.effective now ≠ e.effective now := by
      cases hf : p.queue.find? fun e => p.eligible e && e.effective now with
      | some y =>
        obtain rfl : y = e := by simpa [hf] using chosen
        obtain ⟨hy, before, after, hq, earlier⟩ := List.find?_eq_some_iff_append.1 hf
        simp only [Bool.and_eq_true] at hy
        refine ⟨hy.1, before, after, hq, fun x hx hel => ?_⟩
        simpa [hel, hy.2] using earlier x hx
      | none =>
        have found : p.queue.find? p.eligible = some e := by simpa [hf] using chosen
        obtain ⟨he, before, after, hq, earlier⟩ := List.find?_eq_some_iff_append.1 found
        exact ⟨he, before, after, hq, fun x hx hel => by simpa [hel] using earlier x hx⟩
    obtain ⟨eligible, before, after, hq, earlier⟩ := first
    obtain ⟨waits, allowed⟩ := (p.eligible_iff e).1 eligible
    refine ⟨by simp [hq], waits, fun o grants other same => allowed ?_, fun x hx hp heff ho => ?_, before, after, hq, fun x hx hp same => ?_⟩
    · rw [same]
      exact ⟨grants, other⟩
    · have hel : p.eligible x = true := (p.eligible_iff x).2 ⟨hp, fun ⟨grants, other⟩ => ho _ grants other rfl⟩
      by_contra h
      simpa [heff] using urgent (by simpa using h) x hx hel
    · by_contra h
      have hel : p.eligible x = true := (p.eligible_iff x).2 ⟨hp, fun ⟨grants, other⟩ => h ⟨_, grants, other, rfl⟩⟩
      exact earlier x hx hel same

/-! ## RECORD_READ (R140) -/

/-- Settles O36: `Store.readChunk` by the state of the record. -/
theorem recordReadIsAnswered : Obligations.RecordReadIsAnswered := by
  intro rx r c s takes
  have taken : exec (.recordRead rx r c) s = .next ((s.heard rx).send
      (.recordData r.toNat c.toNat (s.store.readChunk r.toNat c.toNat).1 (s.store.readChunk r.toNat c.toNat).2) rx.sender.toNat) :=
    congrArg _ (receive_takes takes none _)
  refine ⟨fun gone => taken.trans (by simp [Store.readChunk, gone]), fun e he => ?_⟩
  intro pages
  have written : e.written.pages = pages := by
    simp only [pages, Entry.written]
    cases e.keep <;> rfl
  have length : e.written.length = 1024 * pages.length := congrArg (fun l => 1024 * l.length) written
  refine ⟨fun open' => taken.trans (by simp [Store.readChunk, he, open']),
    fun closed beyond => taken.trans (by simp [Store.readChunk, he, closed, length, Nat.not_lt.2 beyond]), fun closed within => ?_⟩
  refine ⟨s.store.bytes e.written (40 * c.toNat) (min 40 (e.written.length - 40 * c.toNat)),
    taken.trans (by simp [Store.readChunk, he, closed, length, within]), by simp [Store.bytes, length], fun i hi => ?_⟩
  have hi' : i < min 40 (e.written.length - 40 * c.toNat) := by simpa [Store.bytes] using hi
  simp [Store.bytes, hi', DirImage.address, written, Config.pageBytes]

/-! ## NOTE_EXPIRY (R151) -/

theorem expireAt_id (t : Nat) (e : NoteEntry) : (e.expireAt t).id = e.id := by
  unfold NoteEntry.expireAt
  split
  · split <;> rfl
  · rfl

theorem expireAt_spanEnd (t : Nat) (e : NoteEntry) : (e.expireAt t).spanEnd = e.spanEnd := by
  unfold NoteEntry.expireAt
  split
  · split <;> rfl
  · rfl

/-- An ACTIVE OBSERVATION whose span end is reached expires. -/
theorem expireAt_due {t x : Nat} {e : NoteEntry} (hs : e.site = false) (he : e.expired = false) (hx : e.spanEnd = some x) (h : x ≤ t) :
    e.expireAt t = { e with expired := true } := by
  simp [NoteEntry.expireAt, hx, hs, he, h]

/-- One that is not reached stays. -/
theorem expireAt_early {t x : Nat} {e : NoteEntry} (hx : e.spanEnd = some x) (h : t < x) : e.expireAt t = e := by
  simp [NoteEntry.expireAt, hx, Nat.not_le.2 h]

theorem expireAt_expired {t : Nat} {e : NoteEntry} (h : e.expired = true) : e.expireAt t = e := by
  unfold NoteEntry.expireAt
  split
  · rw [if_neg (by simp [h])]
  · rfl

/-- Passing to a survey time within the range reaches it, and only the expiry test touches the notes. -/
theorem passToSurvey_spec {s : State} (hr : s.surveyRuns = true) {x : Nat} (hx : x ≤ 4294967295) :
    x ≤ (s.passToSurvey x).clock.survey ∧
      ((s.passToSurvey x).notes = s.notes ∨ ∃ t, (s.passToSurvey x).notes = s.notes.map (NoteEntry.expireAt t)) := by
  unfold State.passToSurvey
  split
  next ahead =>
    have runs : State.surveyRuns { s with clock := { s.clock with now := s.clock.now + ((x - s.clock.survey) * 40000 - s.clock.phase) } } = true := hr
    simp only [State.pass, Config.ticksPerMs, runs, if_true]
    refine ⟨?_, .inr ⟨_, rfl⟩⟩
    simp only [State.setSurvey, Config.surveyMax]
    omega
  next reached => exact ⟨by omega, .inl rfl⟩

/-- Settles O39. -/
theorem observationExpires : Obligations.ObservationExpires := by
  intro s id e x runs hx found span
  obtain ⟨reached, notes⟩ := passToSurvey_spec runs hx
  have active : e.site = false ∧ e.expired = false := by
    have := List.find?_some found
    simp_all
  have expired : exec (.noteExpiry id) s = .next { s.passToSurvey x with
      notes := (s.passToSurvey x).notes.map (NoteEntry.expireAt (s.passToSurvey x).clock.survey) } := by
    change execNoteExpiry id s = _
    simp [execNoteExpiry, found, span, runs]
  refine ⟨_, expired, reached, ?_, ?_, ?_, by simp, by simp, by simp, by simp, by simp⟩
  · refine List.mem_map.2 ?_
    rcases notes with h | ⟨t, h⟩
    · exact ⟨e, h ▸ List.mem_of_find?_eq_some found, expireAt_due active.1 active.2 span reached⟩
    · refine ⟨e.expireAt t, h ▸ List.mem_map_of_mem (List.mem_of_find?_eq_some found), ?_⟩
      rcases Nat.lt_or_ge t x with early | due
      · rw [expireAt_early span early, expireAt_due active.1 active.2 span reached]
      · rw [expireAt_due active.1 active.2 span due, expireAt_expired rfl]
  · rcases notes with h | ⟨t, h⟩ <;> simp [h, Function.comp_def, expireAt_id]
  · rcases notes with h | ⟨t, h⟩ <;> simp [h, Function.comp_def, expireAt_spanEnd]

end Sys2Proof.Machine
end

section
/-!
PROOF. The capture unit: what a TRIGGER does, and how a capture opens, is preempted and is sealed.
-/

namespace Sys2Proof.Machine

/-! ## Opening a capture (R79 to R82) -/

/-- Handing full pages over changes only what the slot holds of its bytes. -/
theorem fillPages_holds (n : Nat) (sl : Slot) (st : Store) :
    ∃ buf pos, (fillPages n sl st).1 = { sl with buf := buf, nextPos := pos } := by
  induction n generalizing sl st with
  | zero => exact ⟨_, _, rfl⟩
  | succ n ih =>
    unfold fillPages
    split
    · obtain ⟨buf, pos, h⟩ := ih { sl with buf := sl.buf.drop Config.pageBytes, nextPos := sl.nextPos + 1 } _
      exact ⟨buf, pos, h⟩
    · exact ⟨_, _, rfl⟩

/-- What a capture request asks of the store. -/
def State.askFor (s : State) (kind : CapKind) : CreateRequest :=
  ⟨.waveform, some kind, none, plannedPages s.cap.ring.length s.channels⟩

/-- With a FREE slot and a record granted the capture opens in that slot as that record. -/
theorem openCapture_opens {s : State} {q : CapRequest} {n r : Nat} (hn : freeSlot s.cap.slots = some n)
    (hr : (s.create (s.askFor q.kind)).2 = some r) :
    ∃ buf pos st, s.openCapture q = ({ (s.create (s.askFor q.kind)).1 with
      cap := { s.cap with slots := putSlot s.cap.slots { s.newSlot q n r with buf := buf, nextPos := pos } }, store := st }, some r) := by
  have slot : s.findSlot q.level = some (s, n) := by rw [State.findSlot, hn]
  obtain ⟨buf, pos, held⟩ := fillPages_holds 6 (s.newSlot q n r)
    ((s.create (s.askFor q.kind)).1.store.push (.page r 0 ((s.newSlot q n r).headerBytes s.channels) .more))
  refine ⟨buf, pos, (fillPages 6 (s.newSlot q n r)
    ((s.create (s.askFor q.kind)).1.store.push (.page r 0 ((s.newSlot q n r).headerBytes s.channels) .more))).2, ?_⟩
  rw [← held]
  unfold State.askFor at hr
  simp only [State.openCapture, slot, hr]
  rfl

/-- With a FREE slot and the record refused the store's refusal is all that comes about. -/
theorem openCapture_refused {s : State} {q : CapRequest} {n : Nat} (hn : freeSlot s.cap.slots = some n)
    (hr : (s.create (s.askFor q.kind)).2 = none) : s.openCapture q = s.create (s.askFor q.kind) := by
  have slot : s.findSlot q.level = some (s, n) := by rw [State.findSlot, hn]
  unfold State.askFor at hr ⊢
  simp only [State.openCapture, slot, hr]

/-- No capture is of a level below a companion's, so that a companion preempts none. -/
theorem preemptable_zero (slots : List Slot) : preemptable slots 0 = none := by
  have : (slots.filter fun sl => sl.running && decide (sl.level < 0)) = [] := by simp
  rw [preemptable, this]
  rfl

/-! ## TRIGGER (R89 to R92) -/

theorem trigger_heard {s : State} {rx : Rx} (h : s.takes rx) (f : TriggerFrame) :
    exec (.trigger rx f) s = .next ((s.heard rx).takeTrigger rx.sender.toNat f) := congrArg _ (receive_takes h none _)

/-- A TRIGGER that the capture unit hears (R89). -/
def State.hears (s : State) (f : TriggerFrame) : Prop :=
  s.measuring = true ∧ f.number.toNat = s.hdr.number ∧ s.hdr.params.accept = true

theorem takeTrigger_deaf {s : State} {f : TriggerFrame} (h : ¬s.hears f) (n : Nat) : s.takeTrigger n f = s := by
  refine if_neg fun hh => h ?_
  simp only [Bool.and_eq_true, beq_iff_eq] at hh
  exact ⟨hh.1.1, hh.1.2, hh.2⟩

theorem takeTrigger_open {s : State} {f : TriggerFrame} (h : s.hears f) {e : OpenEvent} (he : s.ev.event = some e) (n : Nat) :
    s.takeTrigger n f = s.offer (n, f.seq.toNat) := by
  obtain ⟨h1, h2, h3⟩ := h
  simp [State.takeTrigger, h1, h2, h3, he]

/-- A companion of the station is RUNNING. -/
def State.hasCompanion (s : State) (n : Nat) : Prop :=
  ∃ sl ∈ s.cap.slots, sl.running = true ∧ sl.kind = .companion ∧ sl.station = n

theorem companions_any (s : State) (n : Nat) : (s.companions.any fun sl => sl.station == n) = true ↔ s.hasCompanion n := by
  simp [State.companions, State.hasCompanion, and_assoc]

theorem takeTrigger_again {s : State} {f : TriggerFrame} {n : Nat} (he : s.ev.event = none) (hc : s.hasCompanion n) :
    s.takeTrigger n f = s := by
  simp [State.takeTrigger, he, (companions_any s n).2 hc]

theorem takeTrigger_request {s : State} {f : TriggerFrame} {n : Nat} (h : s.hears f) (he : s.ev.event = none)
    (hc : ¬s.hasCompanion n) : s.takeTrigger n f = s.requestCompanion n f.seq.toNat f.start.toNat := by
  obtain ⟨h1, h2, h3⟩ := h
  have : ¬(s.companions.any fun sl => sl.station == n) = true := mt (companions_any s n).1 hc
  simp [State.takeTrigger, h1, h2, h3, he, this]

/-- Settles O25. -/
theorem triggerOfferedOrIgnored : Obligations.TriggerOfferedOrIgnored := by
  intro rx f s takes
  refine ⟨fun other => (trigger_heard takes f).trans (congrArg _ (takeTrigger_deaf (fun hears => ?_) _)), fun hm hn ha => ?_⟩
  · obtain ⟨hm, hn, ha⟩ : s.hears f := hears
    rcases other with h | h | h
    · simp [hm] at h
    · exact h hn
    · simp [ha] at h
  have hears : (s.heard rx).hears f := ⟨hm, hn, ha⟩
  have offered (e : OpenEvent) (he : s.ev.event = some e) :
      exec (.trigger rx f) s = .next ((s.heard rx).offer (rx.sender.toNat, f.seq.toNat)) :=
    (trigger_heard takes f).trans (congrArg _ (takeTrigger_open hears he _))
  refine ⟨fun e he new room => (offered e he).trans ?_, fun e he new full => (offered e he).trans ?_,
    fun e he old => (offered e he).trans ?_, fun he hc => (trigger_heard takes f).trans ?_⟩
  · simp [State.offer, State.heard, he, new, room]
  · simp [State.offer, State.heard, he, new, Nat.not_lt.2 full]
  · simp [State.offer, State.heard, he, old]
  · exact congrArg _ (takeTrigger_again he hc)

/-- What a TRIGGER asks of the capture unit (R91, R92). -/
def State.companionRequest (s : State) (n seq start : Nat) : CapRequest :=
  ⟨.companion, 0, n, seq, start, (lagOf s.hdr.params.hz s.clock.survey start).2, (lagOf s.hdr.params.hz s.clock.survey start).1⟩

theorem requestCompanion_opened {s t : State} {n seq start r : Nat} (h : s.openCapture (s.companionRequest n seq start) = (t, some r)) :
    s.requestCompanion n seq start = { t with ctr := { t.ctr with companionsOpened := satAdd t.ctr.companionsOpened 1 } } := by
  simp only [State.companionRequest] at h
  simp only [State.requestCompanion, h]

theorem requestCompanion_missed {s t : State} {n seq start : Nat} (h : s.openCapture (s.companionRequest n seq start) = (t, none)) :
    s.requestCompanion n seq start = { t with ctr := { t.ctr with companionsMissed := satAdd t.ctr.companionsMissed 1 } } := by
  simp only [State.companionRequest] at h
  simp only [State.requestCompanion, h]

/-- Settles O26. -/
theorem triggerOpensACompanion : Obligations.TriggerOpensACompanion := by
  have asked (rx : Rx) (f : TriggerFrame) (s : State) (takes : s.takes rx) (hears : s.hears f) (he : s.ev.event = none)
      (alone : ∀ sl ∈ s.cap.slots, ¬(sl.running = true ∧ sl.kind = .companion ∧ sl.station = rx.sender.toNat)) :
      exec (.trigger rx f) s = .next ((s.heard rx).requestCompanion rx.sender.toNat f.seq.toNat f.start.toNat) :=
    (trigger_heard takes f).trans (congrArg _ (takeTrigger_request hears he fun ⟨sl, hsl, h⟩ => alone sl hsl h))
  refine ⟨fun rx f s takes hm hn ha he alone => ⟨fun full => ?_, fun n free => ?_⟩,
    fun rx f s n r takes hm hn ha he alone free granted => ?_⟩
  · refine (asked rx f s takes ⟨hm, hn, ha⟩ he alone).trans ?_
    have none : (s.heard rx).findSlot 0 = none := by
      simp [State.findSlot, State.heard, full, preemptable_zero]
    have opened : (s.heard rx).openCapture ((s.heard rx).companionRequest rx.sender.toNat f.seq.toNat f.start.toNat) =
        (s.heard rx, .none) := by
      simp only [State.openCapture, State.companionRequest, none]
    exact congrArg _ (requestCompanion_missed opened)
  · intro made refused
    refine (asked rx f s takes ⟨hm, hn, ha⟩ he alone).trans ?_
    have opened : (s.heard rx).openCapture ((s.heard rx).companionRequest rx.sender.toNat f.seq.toNat f.start.toNat) =
        ({ made.1 with line := (s.heard rx).line }, none) :=
      (openCapture_refused (s := s.heard rx) free (by exact refused)).trans (Prod.ext rfl (by exact refused))
    exact congrArg _ (requestCompanion_missed opened)
  · obtain ⟨buf, pos, st, opened⟩ := openCapture_opens (s := s.heard rx)
      (q := (s.heard rx).companionRequest rx.sender.toNat f.seq.toNat f.start.toNat) free (by exact granted)
    have run := (asked rx f s takes ⟨hm, hn, ha⟩ he alone).trans (congrArg _ (requestCompanion_opened opened))
    exact ⟨_, _, run, rfl, rfl, rfl, rfl, rfl, rfl, rfl, rfl, rfl, rfl, rfl,
      rfl, decide_eq_true_iff, rfl, rfl, rfl, rfl, rfl, rfl, rfl, rfl⟩

/-! ## Preemption and sealing (R79, R80, R94, R95) -/

theorem insertBy_pairwise {α : Type} (key : α → Nat) (a : α) {l : List α} (h : l.Pairwise fun x y => key x ≤ key y) :
    (insertBy key a l).Pairwise fun x y => key x ≤ key y := by
  induction l with
  | nil => simp [insertBy]
  | cons b l ih =>
    obtain ⟨first, rest⟩ := List.pairwise_cons.1 h
    unfold insertBy
    split
    next hab => exact List.pairwise_cons.2 ⟨fun y hy => (List.mem_cons.1 hy).elim (fun e => e ▸ hab) fun hy => hab.trans (first y hy), h⟩
    next hab =>
      refine List.pairwise_cons.2 ⟨fun y hy => ?_, ih rest⟩
      rcases mem_insertBy.1 hy with rfl | hy
      · omega
      · exact first y hy

/-- The sort rises. -/
theorem sortBy_pairwise {α : Type} (key : α → Nat) (l : List α) : (sortBy key l).Pairwise fun x y => key x ≤ key y := by
  induction l with
  | nil => exact .nil
  | cons a l ih => exact insertBy_pairwise key a ih

/-- The slot preempted is of the lowest level, and of these the earliest opened. -/
theorem preemptable_least {slots : List Slot} {level : Nat} {sl : Slot} (hs : sl ∈ slots) (hr : sl.running = true)
    (hl : sl.level < level) (least : ∀ x ∈ slots, x.running = true → x.level < level → x ≠ sl →
      sl.level < x.level ∨ (sl.level = x.level ∧ sl.record < x.record)) : preemptable slots level = some sl := by
  have low (x : Slot) (hx : x ∈ sortBy (·.record) (slots.filter fun sl => sl.running && decide (sl.level < level))) (ne : x ≠ sl) :
      sl.level < x.level ∨ (sl.level = x.level ∧ sl.record < x.record) := by
    have hx : x ∈ slots ∧ x.running = true ∧ x.level < level := by simpa using hx
    exact least x hx.1 hx.2.1 hx.2.2 ne
  have here : sl ∈ sortBy (·.record) (slots.filter fun sl => sl.running && decide (sl.level < level)) := by simp [hs, hr, hl]
  have rising := sortBy_pairwise (·.record) (slots.filter fun sl => sl.running && decide (sl.level < level))
  unfold preemptable
  generalize sortBy (·.record) (slots.filter fun sl => sl.running && decide (sl.level < level)) = q at low here rising
  obtain ⟨before, after, rfl, other⟩ := List.eq_append_cons_of_mem here
  refine head?_sortBy _ (fun b hb => ?_) fun b hb => ?_
  · rcases low b (by simp [hb]) (fun e => other (e ▸ hb)) with h | ⟨-, h⟩
    · exact h
    · have := (List.pairwise_append.1 rising).2.2 b hb sl (by simp)
      omega
  · by_cases e : b = sl
    · rw [e]
    · rcases low b (by simp [hb]) e with h | ⟨h, -⟩ <;> omega

/-- The entry of a record after a change of that record. -/
theorem Store.entryOf_update (st : Store) (r : Nat) {f : Entry → Entry} (hf : ∀ e, (f e).img.record = e.img.record) :
    (st.update r f).entryOf r = (st.entryOf r).map f := by
  have same : (fun e : Entry => e.img.record == r) ∘ (fun e => if e.img.record == r then f e else e) = fun e => e.img.record == r := by
    funext e
    simp only [Function.comp_apply]
    split <;> simp_all
  rw [Store.update, Store.entryOf, List.find?_map, same, Store.entryOf]
  cases h : st.dir.find? fun e => e.img.record == r with
  | none => rfl
  | some e => simpa using fun hr => absurd (List.find?_some h) (by simpa using hr)

/-- The entry whose page list is cut at `keep`. -/
def Entry.kept (keep : Nat) (e : Entry) : Entry := { e with img := { e.img with pages := e.img.pages.take keep } }

theorem Entry.kept_of_le {keep : Nat} {e : Entry} (h : e.img.pages.length ≤ keep) : e.kept keep = e := by
  rw [Entry.kept, List.take_of_length_le h]

/-- The release at a preemption cuts the record's page list. -/
theorem release_spec {st : Store} {r : Nat} {e : Entry} (he : st.entryOf r = some e) (keep : Nat) :
    ((st.release r keep).dir = st.dir ∧ e.img.pages.length ≤ keep ∨ (st.release r keep).dir = (st.update r (Entry.kept keep)).dir) ∧
      (st.release r keep).entryOf r = some (e.kept keep) ∧ (st.release r keep).bad = st.bad := by
  unfold Store.release
  rw [he]
  dsimp only
  split
  next h =>
    have cut : (st.update r (Entry.kept keep)).entryOf r = some (e.kept keep) := by
      rw [Store.entryOf_update (f := Entry.kept keep) _ _ fun _ => rfl, he]
      rfl
    change ((Store.writeEntryOf (st.update r (Entry.kept keep)) r).dir = _ ∧ _ ∨ (Store.writeEntryOf (st.update r (Entry.kept keep)) r).dir = _) ∧
      (Store.writeEntryOf (st.update r (Entry.kept keep)) r).entryOf r = _ ∧ (Store.writeEntryOf (st.update r (Entry.kept keep)) r).bad = _
    rw [Store.writeEntryOf, cut]
    exact ⟨.inr rfl, cut, rfl⟩
  next h =>
    have h : e.img.pages.length ≤ keep := Nat.le_of_not_lt h
    exact ⟨.inl ⟨rfl, h⟩, by rw [Entry.kept_of_le h]; exact he, rfl⟩

/-- Settles O28. -/
theorem captureIsSealedComplete : Obligations.CaptureIsSealedComplete := by
  refine ⟨fun s k sl hm hs hn hc hp only => ?_, fun s level => ⟨fun n free => by rw [State.findSlot, free], fun full => ⟨?_, ?_⟩⟩,
    fun s sl e he => ?_⟩
  · intro closed header
    have found : s.cap.slots.find? (fun x => x.num == k.val + 1 && !x.closing && decide (postInstants ≤ x.post)) = some sl := by
      cases hf : s.cap.slots.find? fun x => x.num == k.val + 1 && !x.closing && decide (postInstants ≤ x.post) with
      | none => exact absurd (List.find?_eq_none.1 hf sl hs) (by simp [hn, hc, postInstants, hp])
      | some y =>
        have := List.find?_some hf
        simp only [Bool.and_eq_true, beq_iff_eq] at this
        rw [only y (List.mem_of_find?_eq_some hf) (this.1.1.trans hn.symm)]
    have run : exec (.captureComplete k) s = .next (s.sealSlot sl .complete) := by
      change execCaptureComplete k s = _
      simp [execCaptureComplete, found, hm]
    have store : (s.sealSlot sl .complete).store = closed.closingWrites s.channels s.store := rfl
    refine ⟨_, run, List.mem_map.2 ⟨sl, hs, by simp [Slot.sealed, closed]⟩, fun x hx hnum => ?_,
      fun x hx hnum => List.mem_map.2 ⟨x, hx, by simp [hnum]⟩, fun held => ?_, fun nothing e he => ?_, rfl, rfl, rfl, rfl, rfl, rfl, rfl⟩
    · obtain ⟨y, hy, rfl⟩ := List.mem_map.1 hx
      by_cases h : y.num = sl.num
      · simp [h, Slot.sealed, closed]
      · simp [h] at hnum
    · rw [store, Slot.closingWrites, if_neg (by simpa [closed] using held)]
      rfl
    · rw [store, Slot.closingWrites, if_pos (by simpa [closed] using nothing)]
      have he' : s.store.entryOf closed.record = some e := he
      rw [Store.closing, he']
      dsimp only
      split
      next h => simp [closed] at h; simp [Store.update, header, closed]
      next h => simp [closed] at h; simp [header, closed]
  · intro sl hs hr hl least
    rw [State.findSlot, full, preemptable_least hs hr hl least]
    rfl
  · intro none
    have : (s.cap.slots.filter fun sl => sl.running && decide (sl.level < level)) = [] :=
      List.filter_eq_nil_iff.2 fun sl hs => by simpa using none sl hs
    rw [State.findSlot, full, preemptable, this]
    rfl
  · intro t keep
    have empty : sl.buf.isEmpty = true ↔ sl.buf = [] := List.isEmpty_iff
    let ended := sl.sealed .truncated s.provisional
    let st := if sl.buf.isEmpty then s.store else s.store.push (.page sl.record sl.nextPos sl.buf .more)
    have entry : st.entryOf sl.record = some e := by
      simp only [st]
      split <;> exact he
    have kept : (if sl.buf.isEmpty then sl.nextPos else sl.nextPos + 1) = keep := by simp only [keep, empty]
    have store : t.store = (st.release sl.record keep).push (.page sl.record 0 (ended.headerBytes s.channels) .seal) := by
      rw [← kept]
      rfl
    obtain ⟨dir, cut, bad⟩ := release_spec entry keep
    refine ⟨rfl, rfl, ?_, ⟨_, (congrArg (Store.entryOf · sl.record) store).trans cut, rfl⟩, fun nodup p hp data good => ?_⟩
    · rw [store]
      exact List.getLast?_concat ..
    · have free : p ∉ t.store.used := by
        rw [Store.mem_used]
        rintro ⟨x', hx', hpx'⟩
        rw [store] at hx'
        change x' ∈ (st.release sl.record keep).dir at hx'
        have live := Store.entryOf_some entry
        have same : st.dir = s.store.dir := by
          simp only [st]
          split <;> rfl
        rcases dir with ⟨-, short⟩ | dir
        · rw [List.drop_of_length_le short] at hp
          simp at hp
        · rw [dir, Store.update, same] at hx'
          obtain ⟨x, hx, rfl⟩ := List.mem_map.1 hx'
          have inside : p ∈ x.img.pages := by
            split at hpx'
            · exact List.mem_of_mem_take hpx'
            · exact hpx'
          obtain rfl : x = e := eq_of_mem_pages nodup hx (same ▸ live.1) inside (List.mem_of_mem_drop hp)
          rw [if_pos (by simpa using live.2)] at hpx'
          exact List.disjoint_take_drop ((List.nodup_flatMap.1 nodup).1 x hx) le_rfl hpx' hp
      have good : p ∉ t.store.bad := by
        have : t.store.bad = s.store.bad := by
          rw [store]
          refine bad.trans ?_
          simp only [st]
          split <;> rfl
        rwa [this]
      exact Store.mem_freePages.2 ⟨data, good, free⟩

end Sys2Proof.Machine
end

section
/-!
PROOF. The event unit: the worst kind of a boundary, how an event gathers its boundaries, opens and ends.
-/

namespace Sys2Proof.Machine

/-! ## The worst kind (R59, R62) -/

/-- The rank of a kind that may be absent. -/
def kindRank : Option EventKind → Nat
  | none => 0
  | some k => k.code

theorem EventKind.worse_code (a b : EventKind) : (a.worse b).code = max a.code b.code := by
  unfold EventKind.worse
  split <;> omega

/-- The fold of R62 ranks no higher than `n` exactly if nothing folded does. -/
theorem worst_rank_le (l : List VoltReport) (w : Option EventKind) (n : Nat) :
    kindRank (l.foldl (fun w v => match w, v.after.kind with
      | some a, some b => some (a.worse b)
      | some a, none => some a
      | none, k => k) w) ≤ n ↔ kindRank w ≤ n ∧ ∀ v ∈ l, kindRank v.after.kind ≤ n := by
  induction l generalizing w with
  | nil => simp
  | cons v l ih =>
    rw [List.foldl_cons, ih, List.forall_mem_cons, ← and_assoc]
    refine and_congr_left fun _ => ?_
    cases w <;> cases h : v.after.kind <;> simp [kindRank, EventKind.worse_code]

theorem BoundaryReport.worst_le (r : BoundaryReport) (n : Nat) :
    kindRank r.worst ≤ n ↔ ∀ v ∈ r.volts, kindRank v.after.kind ≤ n := by
  refine (worst_rank_le r.volts none n).trans ?_
  simp [kindRank]

/-- The rank tells the kind. -/
theorem kindRank_inj {a b : Option EventKind} (h : kindRank a = kindRank b) : a = b := by
  rcases a with _ | a <;> rcases b with _ | b
  · rfl
  · cases b <;> simp [kindRank, EventKind.code] at h
  · cases a <;> simp [kindRank, EventKind.code] at h
  · cases a <;> cases b <;> simp [kindRank, EventKind.code] at h ⊢

/-- The rank of the worst kind is reached by a channel and passed by none. -/
theorem BoundaryReport.worst_eq {r : BoundaryReport} {k : Option EventKind} (top : ∀ v ∈ r.volts, kindRank v.after.kind ≤ kindRank k)
    (hit : kindRank k = 0 ∨ ∃ v ∈ r.volts, v.after.kind = k) : r.worst = k := by
  refine kindRank_inj (le_antisymm ((r.worst_le _).2 top) ?_)
  rcases hit with h | ⟨v, hv, h⟩
  · omega
  · exact h ▸ (r.worst_le _).1 le_rfl v hv

theorem worst_by_channels (r : BoundaryReport) :
    let shows := fun c : ChState => ∃ v ∈ r.volts, v.after = c
    (shows .interrupted → r.worst = some .interruption) ∧ (¬shows .interrupted → shows .sagged → r.worst = some .sag) ∧
      (¬shows .interrupted → ¬shows .sagged → shows .swollen → r.worst = some .swell) ∧
      ((∀ v ∈ r.volts, v.after = .normal) → r.worst = none) := by
  refine ⟨fun ⟨v, hv, h⟩ => ?_, fun no ⟨v, hv, h⟩ => ?_, fun no no' ⟨v, hv, h⟩ => ?_, fun all => ?_⟩
  · refine BoundaryReport.worst_eq (fun x _ => ?_) (.inr ⟨v, hv, by rw [h]; rfl⟩)
    cases x.after <;> decide
  · refine BoundaryReport.worst_eq (fun x hx => ?_) (.inr ⟨v, hv, by rw [h]; rfl⟩)
    cases hx' : x.after with
    | interrupted => exact absurd ⟨x, hx, hx'⟩ no
    | normal | swollen | sagged => decide
  · refine BoundaryReport.worst_eq (fun x hx => ?_) (.inr ⟨v, hv, by rw [h]; rfl⟩)
    cases hx' : x.after with
    | interrupted => exact absurd ⟨x, hx, hx'⟩ no
    | sagged => exact absurd ⟨x, hx, hx'⟩ no'
    | normal | swollen => decide
  · refine BoundaryReport.worst_eq (fun x hx => ?_) (.inl rfl)
    rw [all x hx]
    decide

/-! ## The levels an event keeps (R63) -/

/-- A level stands with its channel until a better one of a channel that counts comes. -/
def keepBest (better : Nat → Nat → Bool) (counts : VoltReport → Bool) (best : Option (Nat × Nat)) (cv : Nat × VoltReport) :
    Option (Nat × Nat) :=
  if counts cv.2 then
    match best with
    | some (l, c) => if better cv.2.level l then some (cv.2.level, cv.1) else some (l, c)
    | none => some (cv.2.level, cv.1)
  else best

theorem lower_eq : lower = keepBest (fun a b => decide (a < b)) fun v => decide (v.after = .sagged ∨ v.after = .interrupted) := by
  funext best cv
  simp only [lower, keepBest, decide_eq_true_eq] <;> rfl

theorem higher_eq : higher = keepBest (fun a b => decide (b < a)) fun v => decide (v.after = .swollen) := by
  funext best cv
  simp only [higher, keepBest, decide_eq_true_eq] <;> rfl

section
variable {better : Nat → Nat → Bool} {counts : VoltReport → Bool}

/-- Each kept level is the one before or one of the reports that count. -/
theorem foldl_keepBest_from (l : List (Nat × VoltReport)) (best : Option (Nat × Nat)) {a c : Nat}
    (h : l.foldl (keepBest better counts) best = some (a, c)) :
    best = some (a, c) ∨ ∃ cv ∈ l, counts cv.2 = true ∧ c = cv.1 ∧ a = cv.2.level := by
  induction l generalizing best with
  | nil => exact .inl h
  | cons cv l ih =>
    rcases ih _ h with h | ⟨x, hx, hc⟩
    · unfold keepBest at h
      split at h
      next counted =>
        split at h
        · split at h
          · exact .inr ⟨cv, by simp, counted, by simp_all⟩
          · exact .inl h
        · exact .inr ⟨cv, by simp, counted, by simp_all⟩
      next => exact .inl h
    · exact .inr ⟨x, by simp [hx], hc⟩

/-- A level that none of the reports that count betters stays. -/
theorem foldl_keepBest_stays {l : List (Nat × VoltReport)} {a c : Nat} (h : ∀ cv ∈ l, counts cv.2 = true → better cv.2.level a = false) :
    l.foldl (keepBest better counts) (some (a, c)) = some (a, c) := by
  induction l with
  | nil => rfl
  | cons cv l ih =>
    obtain ⟨here, rest⟩ := List.forall_mem_cons.1 h
    have stay : keepBest better counts (some (a, c)) cv = some (a, c) := by
      unfold keepBest
      split
      next counted => simp [here counted]
      next => rfl
    rw [List.foldl_cons, stay, ih rest]

variable (strict : ∀ {a b : Nat}, better a b = true → better b a = false)
  (far : ∀ {a b c : Nat}, better b a = false → better c b = false → better c a = false)
include strict

theorem better_irrefl (a : Nat) : better a a = false := by
  cases h : better a a with
  | false => rfl
  | true => exact h.symm.trans (strict h)

include far

/-- No level that stood before betters the kept one. -/
theorem foldl_keepBest_ge (l : List (Nat × VoltReport)) (a c : Nat) :
    ∃ a' c', l.foldl (keepBest better counts) (some (a, c)) = some (a', c') ∧ better a a' = false := by
  induction l generalizing a c with
  | nil => exact ⟨a, c, rfl, better_irrefl strict a⟩
  | cons cv l ih =>
    rw [List.foldl_cons]
    by_cases step : keepBest better counts (some (a, c)) cv = some (a, c)
    · rw [step]
      exact ih a c
    · unfold keepBest at step ⊢
      simp only at step ⊢
      split_ifs at step ⊢ with counted hb
      · obtain ⟨a', c', h, hr⟩ := ih cv.2.level cv.1
        exact ⟨a', c', h, far hr (strict hb)⟩
      all_goals exact absurd rfl step

/-- No report that counts betters the kept level. -/
theorem foldl_keepBest_covers {l : List (Nat × VoltReport)} (best : Option (Nat × Nat)) {cv : Nat × VoltReport} (hcv : cv ∈ l)
    (counted : counts cv.2 = true) :
    ∃ a c, l.foldl (keepBest better counts) best = some (a, c) ∧ better cv.2.level a = false := by
  induction l generalizing best with
  | nil => simp at hcv
  | cons x l ih =>
    rw [List.foldl_cons]
    rcases List.mem_cons.1 hcv with rfl | hcv
    · have here : ∃ a c, keepBest better counts best cv = some (a, c) ∧ better cv.2.level a = false := by
        have own := better_irrefl (better := better) strict cv.2.level
        unfold keepBest
        rw [if_pos counted]
        rcases best with _ | ⟨a, c⟩
        · exact ⟨_, _, rfl, own⟩
        · by_cases hb : better cv.2.level a = true
          · exact ⟨_, _, if_pos hb, own⟩
          · exact ⟨_, _, if_neg hb, by simpa using hb⟩
      obtain ⟨a, c, h, hr⟩ := here
      rw [h]
      obtain ⟨a', c', h', hr'⟩ := foldl_keepBest_ge (better := better) (counts := counts) strict far l a c
      exact ⟨a', c', h', far hr' hr⟩
    · exact ih _ hcv

end

theorem mem_numbered {r : BoundaryReport} {c : Nat} {v : VoltReport} :
    (c, v) ∈ r.numbered ↔ ∃ i, i < 3 ∧ c = i + 1 ∧ r.volts[i]? = some v := by
  rw [BoundaryReport.numbered, List.mem_iff_getElem?]
  constructor
  · rintro ⟨i, h⟩
    obtain ⟨hc, hv⟩ := List.getElem?_zip_eq_some.1 h
    obtain ⟨hi, hc⟩ := List.getElem?_eq_some_iff.1 hc
    have hi : i < 3 := hi
    refine ⟨i, hi, ?_, hv⟩
    interval_cases i <;> exact hc.symm
  · rintro ⟨i, hi, rfl, hv⟩
    refine ⟨i, List.getElem?_zip_eq_some.2 ⟨?_, hv⟩⟩
    interval_cases i <;> rfl

/-- A list that a zip takes up is in it only with its own elements. -/
theorem numbered_volt {r : BoundaryReport} {cv : Nat × VoltReport} (h : cv ∈ r.numbered) : cv.2 ∈ r.volts := by
  obtain ⟨i, -, -, hv⟩ := mem_numbered.1 (show (cv.1, cv.2) ∈ r.numbered from h)
  exact List.mem_of_getElem? hv

/-- The residual of a boundary of the event (R63). -/
theorem residual_spec (r : BoundaryReport) (best : Option (Nat × Nat)) :
    let low := fun v : VoltReport => v.after = .sagged ∨ v.after = .interrupted
    let kept := r.numbered.foldl lower best
    (∀ (i : Nat) (v : VoltReport), i < 3 → r.volts[i]? = some v → low v → ∃ l c, kept = some (l, c) ∧ l ≤ v.level) ∧
      (∀ l c, kept = some (l, c) → best = some (l, c) ∨ ∃ (i : Nat) (v : VoltReport), r.volts[i]? = some v ∧ low v ∧ c = i + 1 ∧
        l = v.level) ∧
      (∀ l c, best = some (l, c) → ∃ l' c', kept = some (l', c') ∧ l' ≤ l) ∧
      (∀ l c, best = some (l, c) → (∀ v ∈ r.volts, low v → l ≤ v.level) → kept = some (l, c)) := by
  intro low kept
  have strict {a b : Nat} (h : decide (a < b) = true) : decide (b < a) = false := by simp at h ⊢; omega
  have far {a b c : Nat} (h : decide (b < a) = false) (h' : decide (c < b) = false) : decide (c < a) = false := by
    simp at h h' ⊢; omega
  have eq : kept = r.numbered.foldl (keepBest (fun a b => decide (a < b)) fun v => decide (low v)) best := by
    rw [← lower_eq]
  refine ⟨fun i v hi hv hl => ?_, fun l c h => ?_, fun l c h => ?_, fun l c h all => ?_⟩
  · obtain ⟨a, c, h, hr⟩ := foldl_keepBest_covers (better := fun a b => decide (a < b)) (counts := fun v => decide (low v)) strict far best
      (mem_numbered.2 ⟨i, hi, rfl, hv⟩) (decide_eq_true hl)
    exact ⟨a, c, eq.trans h, by simpa using hr⟩
  · rcases foldl_keepBest_from _ _ (eq.symm.trans h) with h | ⟨⟨c', v⟩, hcv, hl, rfl, rfl⟩
    · exact .inl h
    · obtain ⟨i, -, rfl, hv⟩ := mem_numbered.1 hcv
      exact .inr ⟨i, v, hv, of_decide_eq_true hl, rfl, rfl⟩
  · obtain ⟨a', c', h', hr⟩ := foldl_keepBest_ge (better := fun a b => decide (a < b)) (counts := fun v => decide (low v)) strict far
      r.numbered l c
    exact ⟨a', c', eq.trans (h ▸ h'), by simpa using hr⟩
  · rw [eq, h]
    exact foldl_keepBest_stays fun cv hcv hl => by simpa using all cv.2 (numbered_volt hcv) (of_decide_eq_true hl)

/-- The maximum of a boundary of the event (R63). -/
theorem maximum_spec (r : BoundaryReport) (best : Option (Nat × Nat)) :
    let kept := r.numbered.foldl higher best
    (∀ (i : Nat) (v : VoltReport), i < 3 → r.volts[i]? = some v → v.after = .swollen → ∃ l c, kept = some (l, c) ∧ v.level ≤ l) ∧
      (∀ l c, kept = some (l, c) → best = some (l, c) ∨ ∃ (i : Nat) (v : VoltReport), r.volts[i]? = some v ∧ v.after = .swollen ∧
        c = i + 1 ∧ l = v.level) ∧
      (∀ l c, best = some (l, c) → ∃ l' c', kept = some (l', c') ∧ l ≤ l') ∧
      (∀ l c, best = some (l, c) → (∀ v ∈ r.volts, v.after = .swollen → v.level ≤ l) → kept = some (l, c)) := by
  intro kept
  have strict {a b : Nat} (h : decide (b < a) = true) : decide (a < b) = false := by simp at h ⊢; omega
  have far {a b c : Nat} (h : decide (a < b) = false) (h' : decide (b < c) = false) : decide (a < c) = false := by
    simp at h h' ⊢; omega
  have eq : kept = r.numbered.foldl (keepBest (fun a b => decide (b < a)) fun v => decide (v.after = .swollen)) best := by
    rw [← higher_eq]
  refine ⟨fun i v hi hv hl => ?_, fun l c h => ?_, fun l c h => ?_, fun l c h all => ?_⟩
  · obtain ⟨a, c, h, hr⟩ := foldl_keepBest_covers (better := fun a b => decide (b < a)) (counts := fun v => decide (v.after = .swollen))
      strict far best (mem_numbered.2 ⟨i, hi, rfl, hv⟩) (decide_eq_true hl)
    exact ⟨a, c, eq.trans h, by simpa using hr⟩
  · rcases foldl_keepBest_from _ _ (eq.symm.trans h) with h | ⟨⟨c', v⟩, hcv, hl, rfl, rfl⟩
    · exact .inl h
    · obtain ⟨i, -, rfl, hv⟩ := mem_numbered.1 hcv
      exact .inr ⟨i, v, hv, of_decide_eq_true hl, rfl, rfl⟩
  · obtain ⟨a', c', h', hr⟩ := foldl_keepBest_ge (better := fun a b => decide (b < a)) (counts := fun v => decide (v.after = .swollen))
      strict far r.numbered l c
    exact ⟨a', c', eq.trans (h ▸ h'), by simpa using hr⟩
  · rw [eq, h]
    exact foldl_keepBest_stays fun cv hcv hl => by simpa using all cv.2 (numbered_volt hcv) (of_decide_eq_true hl)

theorem mem_gather_involved (e : OpenEvent) (r : BoundaryReport) (k : EventKind) (c : Nat) :
    c ∈ (e.gather r k).involved ↔ c ∈ [1, 2, 3] ∧ (c ∈ e.involved ∨ ∃ v, (c, v) ∈ r.numbered ∧ v.after ≠ .normal) := by
  simp only [OpenEvent.gather, List.mem_filter, Bool.or_eq_true, List.contains_iff_mem, List.any_eq_true, Bool.and_eq_true, beq_iff_eq,
    bne_iff_ne, Prod.exists]
  refine and_congr_right fun _ => or_congr_right ⟨?_, ?_⟩
  · rintro ⟨a, v, h, rfl, hv⟩
    exact ⟨v, h, hv⟩
  · rintro ⟨v, h, hv⟩
    exact ⟨c, v, h, rfl, hv⟩

/-! ## Opening (R59, R60, R66, R67, R85 to R87) -/

/-- Offers touch the related list of the open event and the count of missed companions; with room for all of them none is missed. -/
theorem foldl_offer (l : List Slot) (s : State) {e : OpenEvent} (he : s.ev.event = some e) :
    ∃ rel missed, l.foldl (fun s sl => s.offer (sl.station, sl.seq)) s = { s with
        ev := { s.ev with event := some { e with related := rel } }, ctr := { s.ctr with companionsMissed := missed } } ∧
      (∀ p ∈ e.related, p ∈ rel) ∧
      (e.related.length + l.length ≤ 4 → ∀ sl ∈ l, (sl.station, sl.seq) ∈ rel) := by
  induction l generalizing s e with
  | nil =>
    refine ⟨e.related, s.ctr.companionsMissed, ?_, fun _ h => h, fun _ _ h => by simp at h⟩
    rw [← he]
    rfl
  | cons sl l ih =>
    have step : ∃ rel m, s.offer (sl.station, sl.seq) = { s with
          ev := { s.ev with event := some { e with related := rel } }, ctr := { s.ctr with companionsMissed := m } } ∧
        (∀ p ∈ e.related, p ∈ rel) ∧ rel.length ≤ e.related.length + 1 ∧ (e.related.length < 4 → (sl.station, sl.seq) ∈ rel) := by
      unfold State.offer
      rw [he]
      dsimp only
      split
      next h =>
        refine ⟨e.related, s.ctr.companionsMissed, ?_, fun _ h => h, by omega, fun _ => by simpa using h⟩
        rw [← he]
      next h =>
        split
        next => exact ⟨_, s.ctr.companionsMissed, rfl, fun p hp => by simp [hp], by simp, fun _ => by simp⟩
        next full =>
          refine ⟨e.related, satAdd s.ctr.companionsMissed 1, ?_, fun _ h => h, by omega, fun room => absurd room full⟩
          rw [← he]
    obtain ⟨rel, m, hs, keep, grow, here⟩ := step
    obtain ⟨rel', m', hs', keep', all⟩ := ih (s.offer (sl.station, sl.seq)) (e := { e with related := rel }) (by rw [hs])
    refine ⟨rel', m', ?_, fun p hp => keep' p (keep p hp), fun room => ?_⟩
    · rw [List.foldl_cons, hs', hs]
    · simp only [List.length_cons] at room
      refine List.forall_mem_cons.2 ⟨keep' _ (here (by omega)), fun x hx => all (by dsimp only; omega) x hx⟩

end Sys2Proof.Machine
end

section
/-!
PROOF. The opening, the gathering and the sealing of an event.
-/

namespace Sys2Proof.Machine

/-! ## One-page records (R71, R115, R150) -/

theorem storeOnePage_granted {s t : State} {tag : Tag} {id : Option Nat} {n : Nat} (h : s.create ⟨tag, none, id, 1⟩ = (t, some n))
    (bs : List Byte) :
    s.storeOnePage tag id bs = ({ t with store := { t.store with writes := t.store.writes ++ [.page n 0 bs .seal] } }, some n) := by
  simp only [State.storeOnePage, h]
  rfl

theorem storeOnePage_refused {s t : State} {tag : Tag} {id : Option Nat} (h : s.create ⟨tag, none, id, 1⟩ = (t, none)) (bs : List Byte) :
    s.storeOnePage tag id bs = (t, none) := by
  simp only [State.storeOnePage, h]

/-- The page of the open event's SAG SUMMARY at its seal (R68, R73). -/
def State.sagPage (s : State) (e : OpenEvent) (outcome stop : Nat) : List Byte :=
  e.bytes s.stationNo s.channels outcome stop (e.unsure || s.provisional) (s.attach e.start stop)

/-- The seal of an open event: its record is asked for, and its page is handed over, or it is lost and counted (R68, R71). -/
theorem sealEvent_spec {s : State} {e : OpenEvent} (he : s.ev.event = some e) (outcome stop : Nat) :
    let made := s.create ⟨.sag, none, none, 1⟩
    (∀ n, made.2 = some n → s.sealEvent outcome stop = { made.1 with
      ev := { s.ev with event := none }
      store := { made.1.store with writes := made.1.store.writes ++ [.page n 0 (s.sagPage e outcome stop) .seal] } }) ∧
    (made.2 = none → s.sealEvent outcome stop = { made.1 with
      ev := { s.ev with event := none }
      ctr := { made.1.ctr with summariesLost := satAdd made.1.ctr.summariesLost 1 } }) := by
  intro made
  have same (r : Option Nat) (h : made.2 = r) : { s with ev := { s.ev with event := none } }.create ⟨.sag, none, none, 1⟩ =
      ({ made.1 with ev := { s.ev with event := none } }, r) := Prod.ext rfl h
  refine ⟨fun n h => ?_, fun h => ?_⟩
  · simp only [State.sealEvent, he, storeOnePage_granted (same _ h)]
    rfl
  · simp only [State.sealEvent, he, storeOnePage_refused (same _ h)]

/-! ## The capture unit's answer to an event that opens (R85) -/

theorem openCapture_events (s : State) (q : CapRequest) : (s.openCapture q).1.ctr.events = s.ctr.events := by
  have found (level : Nat) (s' : State) (n : Nat) (h : s.findSlot level = some (s', n)) : s'.ctr.events = s.ctr.events := by
    unfold State.findSlot at h
    split at h
    · obtain ⟨rfl, -⟩ := Prod.ext_iff.1 (Option.some.inj h)
      rfl
    · obtain ⟨sl, -, h⟩ := Option.map_eq_some_iff.1 h
      obtain ⟨rfl, -⟩ := Prod.ext_iff.1 h
      rfl
  unfold State.openCapture
  split
  · rfl
  next h =>
    have same := found _ _ _ h
    dsimp only
    split <;> exact same

theorem requestOwn_events (s : State) (seq level start : Nat) : (s.requestOwn seq level start).1.ctr.events = s.ctr.events := by
  have fresh : (s.requestFresh seq level start).1.ctr.events = s.ctr.events := by
    unfold State.requestFresh
    dsimp only
    split <;> exact openCapture_events ..
  unfold State.requestOwn
  split
  · split
    · rfl
    · exact fresh
  · exact fresh

theorem requestOwn_converts {s : State} {sl : Slot} (h : s.companions.getLast? = some sl) (hp : sl.post ≤ 1024) (seq level start : Nat) :
    s.requestOwn seq level start = (s.convert sl seq level start, some sl.record) := by
  simp only [State.requestOwn, h, hp, if_true]

theorem requestOwn_fresh {s : State} (h : ∀ sl, s.companions.getLast? = some sl → 1024 < sl.post) (seq level start : Nat) :
    s.requestOwn seq level start = s.requestFresh seq level start := by
  unfold State.requestOwn
  split
  next sl hs => exact if_neg (Nat.not_le.2 (h sl hs))
  next => rfl

/-- What a fresh own capture asks for. -/
def State.ownRequest (s : State) (seq level start : Nat) : CapRequest := ⟨.own, level, s.stationNo, seq, start, false, 0⟩

theorem requestFresh_opened {s t : State} {seq level start r : Nat} (h : s.openCapture (s.ownRequest seq level start) = (t, some r)) :
    s.requestFresh seq level start = (t, some r) := by
  simp only [State.ownRequest] at h
  simp only [State.requestFresh, h]

theorem requestFresh_refused {s t : State} {seq level start : Nat} (h : s.openCapture (s.ownRequest seq level start) = (t, none)) :
    s.requestFresh seq level start = ({ t with ctr := { t.ctr with capturesNoWave := satAdd t.ctr.capturesNoWave 1 } }, none) := by
  simp only [State.ownRequest] at h
  simp only [State.requestFresh, h]

theorem Store.writeEntryOf_dir (st : Store) (r : Nat) : (st.writeEntryOf r).dir = st.dir := by
  unfold Store.writeEntryOf
  split <;> rfl

/-! ## The opening (R59, R60) -/

/-- The record of an event that opens, with its related list and its waveform link. -/
def State.newEvent (s : State) (r : BoundaryReport) (st : TbState) (k : EventKind) (rel : List (Nat × Nat)) (link : Option Nat) :
    OpenEvent :=
  { (blankEvent s.ev.seq r.time st k s.provisional).gather r k with related := rel, link := link }

/-- An event that opens, once its boundary has been gathered and the companions have been offered: `rel` is its related list and
`missed` the count of missed companions. -/
def State.opened (s : State) (r : BoundaryReport) (st : TbState) (k : EventKind) (rel : List (Nat × Nat)) (missed : Nat) : State :=
  { s with
    ev := { event := some (s.newEvent r st k rel none), seq := nextSeq s.ev.seq }
    ctr := { s.ctr with events := satAdd s.ctr.events 1, companionsMissed := missed } }

/-- The opening: the record, the offers, the capture unit's answer as the waveform link, and the TRIGGER. -/
theorem openEvent_eq (s : State) (r : BoundaryReport) (st : TbState) (k : EventKind) :
    ∃ rel missed, s.openEvent r st k = (
        let out := (s.opened r st k rel missed).requestOwn s.ev.seq k.code r.time
        let t := out.1.setLink out.2
        if s.hdr.params.send then t.send (.trigger s.hdr.number s.ev.seq k.code r.time) 15 else t) ∧
      (s.companions.length ≤ 4 → ∀ sl ∈ s.companions, (sl.station, sl.seq) ∈ rel) := by
  let blank := (blankEvent s.ev.seq r.time st k s.provisional).gather r k
  obtain ⟨rel, missed, offers, -, all⟩ := foldl_offer s.companions
    { s with ev := { event := some blank, seq := nextSeq s.ev.seq }, ctr := { s.ctr with events := satAdd s.ctr.events 1 } } (e := blank) rfl
  refine ⟨rel, missed, ?_, fun few => all (by simpa [blank, OpenEvent.gather, blankEvent] using few)⟩
  have offered : _ = s.opened r st k rel missed := offers
  have hdr : ((s.opened r st k rel missed).requestOwn s.ev.seq k.code r.time).1.hdr = s.hdr := by
    simp [State.opened]
  unfold State.openEvent
  dsimp only
  have companions : State.companions { s with
      ev := { event := some blank, seq := nextSeq s.ev.seq }
      ctr := { s.ctr with events := satAdd s.ctr.events 1 } } = s.companions := rfl
  rw [companions, offered]
  simp only [setLink_hdr, hdr]

theorem companions_length (s : State) : s.companions.length ≤ s.cap.slots.length :=
  ((sortBy_perm ..).length_eq).trans_le (List.length_filter_le ..)

theorem mem_companions {s : State} {sl : Slot} : sl ∈ s.companions ↔ sl ∈ s.cap.slots ∧ sl.running = true ∧ sl.kind = .companion := by
  simp [State.companions]

theorem createAsked_opened (s : State) (r : BoundaryReport) (st : TbState) (k : EventKind) (rel : List (Nat × Nat)) (missed : Nat)
    (req : CreateRequest) : ((s.opened r st k rel missed).create req).2 = (s.create req).2 := rfl

/-- The fields that the opening leaves after its answer, with or without the TRIGGER. -/
theorem openEvent_fields {s : State} {r : BoundaryReport} {st : TbState} {k : EventKind} {rel : List (Nat × Nat)} {missed : Nat}
    {out : State × Option Nat} (hout : (s.opened r st k rel missed).requestOwn s.ev.seq k.code r.time = out) {t : State}
    (ht : t = if s.hdr.params.send then (out.1.setLink out.2).send (.trigger s.hdr.number s.ev.seq k.code r.time) 15
      else out.1.setLink out.2) :
    t.ev = { event := some (s.newEvent r st k rel out.2), seq := nextSeq s.ev.seq } ∧
      t.ctr = out.1.ctr ∧ t.cap = out.1.cap ∧ t.store = out.1.store ∧
      t.line = if s.hdr.params.send then (s.send (.trigger s.hdr.number s.ev.seq k.code r.time) 15).line else s.line := by
  have ev : out.1.ev = (s.opened r st k rel missed).ev := by rw [← hout, requestOwn_ev]
  have line : out.1.line = s.line := by rw [← hout, requestOwn_line]; rfl
  have clock : out.1.clock = s.clock := by rw [← hout, requestOwn_clock]; rfl
  have link : (out.1.setLink out.2).ev = { event := some (s.newEvent r st k rel out.2), seq := nextSeq s.ev.seq } := by
    simp only [State.setLink, ev]
    rfl
  have sent : ((out.1.setLink out.2).send (.trigger s.hdr.number s.ev.seq k.code r.time) 15).line =
      (s.send (.trigger s.hdr.number s.ev.seq k.code r.time) 15).line := by
    simp [State.send, line, clock]
  subst ht
  split
  · exact ⟨link, rfl, rfl, rfl, sent⟩
  · exact ⟨link, rfl, rfl, rfl, line⟩

/-- Settles O27. -/
theorem eventsGatherTheirBoundaries : Obligations.EventsGatherTheirBoundaries := by
  refine ⟨worst_by_channels, fun e r k => ?_, fun s r st k closed worst => ?_, fun s r st e he => ?_⟩
  · intro low g
    obtain ⟨covers, from', ge, stays⟩ := residual_spec r e.residual
    obtain ⟨covers', from'', ge', stays'⟩ := maximum_spec r e.maximum
    have kind : g.kind.code = max e.kind.code k.code := EventKind.worse_code ..
    refine ⟨by omega, by omega, ?_, rfl, ?_, ?_, fun h => if_pos h, fun h i a c ha hc => ?_, fun c hc hin => ?_,
      fun i v hi hv => ⟨fun hn => ?_, covers i v hi hv, covers' i v hi hv⟩, from', from'', ge, ge', stays, stays', rfl, rfl, rfl⟩
    · change e.kind.worse k = e.kind ∨ e.kind.worse k = k
      unfold EventKind.worse
      split <;> simp
    · simp [g, OpenEvent.gather]
    · simp [g, OpenEvent.gather, BoundaryReport.clipped]
    · have peaks : g.peaks = List.zipWith max e.peaks (r.currents.map (·.rq)) := if_neg h
      simp [peaks, List.getElem?_zipWith, ha, hc]
    · exact (mem_gather_involved e r k c).2 ⟨hin, .inl hc⟩
    · refine (mem_gather_involved e r k _).2 ⟨?_, .inr ⟨v, mem_numbered.2 ⟨i, hi, rfl, hv⟩, hn⟩⟩
      interval_cases i <;> simp
  · intro t ask
    obtain ⟨rel, missed, opened, offered⟩ := openEvent_eq s r st k
    have taken : t = s.openEvent r st k := by simp only [t, State.takeReport, closed, worst]
    obtain ⟨out, hout⟩ : ∃ out, (s.opened r st k rel missed).requestOwn s.ev.seq k.code r.time = out := ⟨_, rfl⟩
    dsimp only at opened
    rw [hout] at opened
    obtain ⟨ev, ctr, cap, store, line⟩ := openEvent_fields hout (taken.trans opened)
    refine ⟨_, ev, rfl, rfl, rfl, ?_, rfl, rfl, rfl, fun few sl hs hr hk => ?_, ?_, line, fun sl hsl hp => ?_, fun late n free => ?_⟩
    · change (k.worse k) = k
      simp [EventKind.worse]
    · exact offered ((companions_length s).trans few) sl (mem_companions.2 ⟨hs, hr, hk⟩)
    · rw [ctr, ← hout, requestOwn_events]
      rfl
    · intro own
      rw [requestOwn_converts (s := s.opened r st k rel missed) hsl hp] at hout
      subst hout
      refine ⟨rfl, congrArg Capture.slots cap, ?_, fun x hx hr => ?_⟩
      · rw [store]
        exact List.getLast?_concat ..
      · rw [store] at hx
        change x ∈ (Store.writeEntryOf (Store.update _ sl.record _) sl.record).dir at hx
        rw [Store.writeEntryOf_dir] at hx
        obtain ⟨y, -, rfl⟩ := List.mem_map.1 hx
        by_cases h : (y.img.record == sl.record) = true
        · rw [if_pos h]
        · rw [if_neg h] at hr
          exact absurd hr (by simpa using h)
    · rw [requestOwn_fresh (s := s.opened r st k rel missed) late] at hout
      refine ⟨fun n' granted => ?_, fun refused => ?_⟩
      · obtain ⟨buf, pos, st', made⟩ := openCapture_opens (s := s.opened r st k rel missed)
          (q := (s.opened r st k rel missed).ownRequest s.ev.seq k.code r.time) free (by exact granted)
        rw [requestFresh_opened made] at hout
        subst hout
        have slots := congrArg Capture.slots cap
        exact ⟨rfl, _, (congrArg (_ ∈ ·) slots).mpr (mem_insertBy.2 (.inl rfl)), rfl, rfl, rfl, rfl, rfl, rfl, rfl, rfl⟩
      · have made := (openCapture_refused (s := s.opened r st k rel missed)
          (q := (s.opened r st k rel missed).ownRequest s.ev.seq k.code r.time) free (by exact refused))
        have none : ((s.opened r st k rel missed).create ((s.opened r st k rel missed).askFor .own)).2 = none := refused
        rw [requestFresh_refused (made.trans (Prod.ext rfl none))] at hout
        subst hout
        exact ⟨rfl, congrArg Capture.slots cap, congrArg Counters.capturesNoWave ctr⟩
  · intro t
    refine ⟨fun k worst => ?_, fun none => ?_⟩
    · have taken : t = if e.kind.code < (e.gather r k).kind.code then
          { s with ev := { s.ev with event := some (e.gather r k) } }.raiseLevel e.seq (e.gather r k).kind.code
          else { s with ev := { s.ev with event := some (e.gather r k) } } := by
        simp only [t, State.takeReport, he, worst]
      have kind : (e.gather r k).kind = if e.kind.code < k.code then k else e.kind := rfl
      rw [taken]
      split
      next rises =>
        have h : e.kind.code < k.code := by
          rw [kind] at rises
          split at rises
          · assumption
          · omega
        refine ⟨rfl, rfl, rfl, rfl, List.map_congr_left fun sl _ => ?_⟩
        rw [kind, if_pos h]
        simp [h, and_assoc, State.stationNo, State.ownNumber]
      next same =>
        have h : ¬e.kind.code < k.code := fun h => same (by rw [kind, if_pos h]; exact h)
        exact ⟨rfl, rfl, rfl, rfl, by simp [h]⟩
    · intro made page
      have taken : t = s.sealEvent 1 r.time := by simp only [t, State.takeReport, he, none]
      obtain ⟨granted, refused⟩ := sealEvent_spec he 1 r.time
      cases hm : made.2 with
      | none =>
        rw [taken, refused hm]
        exact ⟨rfl, rfl, rfl, fun n h => by simp at h, fun _ => ⟨rfl, rfl⟩⟩
      | some n =>
        rw [taken, granted n hm]
        refine ⟨rfl, rfl, rfl, fun n' h => ?_, fun h => by simp at h⟩
        obtain rfl := Option.some.inj h
        exact ⟨rfl, rfl⟩

end Sys2Proof.Machine
end

section
/-!
PROOF. The origin side of the print exchange: its timers and the answers of another station's printer.
-/

namespace Sys2Proof.Machine

/-! ## The report engine's operations, said once -/

section
variable {s : State} {j : Job}

/-- A timer of a job that runs expires at its time. -/
theorem jobTimer_fires {entry : Fin 2} {d : Nat} {timer : Job → Option Nat} (hm : s.mode = .running) (hj : s.jobAt entry.val = some j)
    (hd : timer j = some d) (f : Job → State → State) : s.jobTimer entry j.state timer f = f j (s.passTo d) := by
  simp [State.jobTimer, hj, State.atTimer, hd, State.isRunning, hm]

theorem exchangeTimer_station {n : Nat} (h : j.printer = .station n) (t : Nat) : s.exchangeTimer j t = some (s.clock.now + ms t) := by
  simp [State.exchangeTimer, h, State.inMs]

/-- A job that does not end DONE leaves the watermark. -/
theorem endJob_undone {e : JobEnd} (h : e ≠ .done) (s : State) (j : Job) : s.endJob j e = { s with
    store := j.records.foldl Store.unpin s.store
    ctr := s.ctr.jobEnded e
    rep := { s.rep with jobs := s.rep.jobs.filter fun x => x.entry != j.entry } } := by
  simp [State.endJob, h]

/-- A block to another station's printer is a frame, and its answer timer runs. -/
theorem sendBlock_station {n : Nat} (h : j.printer = .station n) (s : State) (b : CurBlock) (sends : Nat) :
    s.sendBlock j b sends = ((s.setJob { j with
      current := some { b with sends := sends }, answerTimer := some (s.clock.now + ms 500), holdTimer := none }).send
        (.printBlock j.number b.seq (if b.line.isNone then 1 else 0) (b.line.getD [])) n, []) := by
  simp [State.sendBlock, h, exchangeTimer_station h]

theorem abandon_station {n : Nat} (h : j.printer = .station n) (s : State) :
    (s.abandon j).run = (s.send (.drop j.number) n).endJob j .abandoned := by
  simp [State.abandon, h, Exchange.andThen]

theorem jobOf_some {p : Party} {n : Nat} (h : s.jobOf p n = some j) : j.printer = p ∧ j.number = n := by
  simpa using List.find?_some h

theorem jobAt_some {n : Nat} (h : s.jobAt n = some j) : j.entry = n := by
  simpa using List.find?_some h

end

section
variable {s : State} {j : Job} {entry : Fin 2} {d : Nat} (hm : s.mode = .running) (hj : s.jobAt entry.val = some j)
include hm hj

theorem askAnswerTimer_fires (hs : j.state = .asked) (hd : j.answerTimer = some d) : exec (.askAnswerTimer entry) s =
    .next (if j.askSends < 3 then ({ s.passTo d with line := (s.passTo d).line.withdraw (isAskOf j.number) }.askPrinter j).run
      else (s.passTo d).endJob j .abandoned) :=
  congrArg Host.Outcome.next (hs ▸ jobTimer_fires (timer := (·.answerTimer)) hm hj hd _)

theorem refreshTimer_fires (hs : j.state = .queued) (hd : j.refreshTimer = some d) : exec (.refreshTimer entry) s =
    .next (((s.passTo d).setJob { j with refreshTimer := (s.passTo d).exchangeTimer j 10000 }).sendAsk j).run :=
  congrArg Host.Outcome.next (hs ▸ jobTimer_fires (timer := (·.refreshTimer)) hm hj hd _)

theorem blockAnswerTimer_fires (hs : j.state = .sending) (hd : j.answerTimer = some d) {b : CurBlock} (hb : j.current = some b) :
    exec (.blockAnswerTimer entry) s =
      .next (if b.sends < 3 then ((s.passTo d).resendBlock j b (b.sends + 1)).run else ((s.passTo d).abandon j).run) := by
  refine congrArg Host.Outcome.next (Eq.trans (hs ▸ jobTimer_fires (timer := (·.answerTimer)) hm hj hd _) ?_)
  simp only [hb]

theorem holdTimer_fires (hs : j.state = .sending) (hd : j.holdTimer = some d) {b : CurBlock} (hb : j.current = some b) :
    exec (.holdTimer entry) s = .next ((s.passTo d).resendBlock j b 1).run := by
  refine congrArg Host.Outcome.next (Eq.trans (hs ▸ jobTimer_fires (timer := (·.holdTimer)) hm hj hd _) ?_)
  simp only [hb]

theorem holdingLimit_fires (hs : j.state = .sending) {n : Nat} (hp : j.printer = .station n) (hd : j.heldSince = some d) :
    exec (.holdingLimit entry) s = .next ((s.passTo (d + (ms 600000 - j.heldTicks))).abandon j).run :=
  congrArg Host.Outcome.next (hs ▸ jobTimer_fires (d := d + (ms 600000 - j.heldTicks)) hm hj (by simp [hp, hd]) _)

end

/-! ## Asks (R160, R161, R186) -/

theorem isAskOf_iff (number : Nat) (p : Payload) : isAskOf number p = true ↔ ∃ kind cls, p = .printAsk number kind cls := by
  cases p <;> simp [isAskOf]

theorem mem_withdraw {l : Line} {which : Payload → Bool} {f : TxFrame} :
    f ∈ (l.withdraw which).queue ↔ ∃ g ∈ l.queue, (which g.payload = true → g.sending = true) ∧
      f = if which g.payload then { g with noRetry := true } else g := by
  simp only [Line.withdraw, List.mem_map, List.mem_filter, Bool.not_eq_true', Bool.and_eq_false_imp, Bool.not_eq_false', and_assoc]
  exact exists_congr fun g => and_congr_right fun _ => and_congr_right fun _ => eq_comm

/-- Settles O41. -/
theorem asksAreRepeated : Obligations.AsksAreRepeated := by
  refine ⟨fun number l => ⟨isAskOf_iff number, fun f hf other => ?_, fun f hf hs ha => ?_, fun f hf ha => ?_⟩,
    fun s e j n d hm hj hp => ⟨fun hst hd few => ?_, fun hst hd many => ?_, fun hst hd => ?_⟩⟩
  · have : isAskOf number f.payload = false := by
      rw [← Bool.not_eq_true, isAskOf_iff]
      simpa using other
    exact mem_withdraw.2 ⟨f, hf, by simp [this], by simp [this]⟩
  · exact mem_withdraw.2 ⟨f, hf, fun _ => hs, by simp [ha]⟩
  · obtain ⟨g, -, hs, rfl⟩ := mem_withdraw.1 hf
    by_cases h : isAskOf number g.payload = true
    · rw [if_pos h]
      exact ⟨hs h, rfl⟩
    · rw [if_neg h] at ha
      exact absurd ha h
  · refine (askAnswerTimer_fires hm hj hst hd).trans ?_
    simp [few, State.askPrinter, State.sendAsk, hp, exchangeTimer_station hp]
  · have fires := askAnswerTimer_fires hm hj hst hd
    rw [if_neg (Nat.not_lt.2 many), endJob_undone (by decide)] at fires
    refine ⟨_, fires, ?_, ?_, ?_, ?_, ?_, ?_⟩ <;> simp [Counters.jobEnded, jobAt_some hj]
  · refine (refreshTimer_fires hm hj hst hd).trans ?_
    simp [State.sendAsk, hp, exchangeTimer_station hp]

/-! ## Blocks (R162, R163, R166) -/

/-- A block sent again to another station's printer. -/
theorem resendBlock_station {j : Job} {n : Nat} (h : j.printer = .station n) (s : State) (b : CurBlock) (sends : Nat) :
    (s.resendBlock j b sends).run = (State.setJob { s with line := s.line.withdraw (isBlockOf j.number b.seq) } { j with
      current := some { b with sends := sends }, answerTimer := some (s.clock.now + ms 500), holdTimer := none }).send
        (.printBlock j.number b.seq (if b.line.isNone then 1 else 0) (b.line.getD [])) n := by
  rw [State.resendBlock, sendBlock_station h, run_nil]

/-- A job that takes its entry twice stands there as the second one says. -/
theorem setJob_setJob {s : State} {j j' : Job} (h : j'.entry = j.entry) (prn : Printer) :
    State.setJob { s.setJob j with prn := prn } j' = State.setJob { s with prn := prn } j' := by
  have twice (x : Job) : (if (if x.entry = j.entry then j else x).entry = j'.entry then j' else
      if x.entry = j.entry then j else x) = if x.entry = j'.entry then j' else x := by
    rw [h]
    by_cases hx : x.entry = j.entry <;> simp [hx]
  simp [State.setJob, Function.comp_def, twice]

/-- A job is found under its printer and number as it was set. -/
theorem jobOf_setJob {s : State} {j j' : Job} {p : Party} {n : Nat} (h : s.jobOf p n = some j) (he : j'.entry = j.entry)
    (hp : j'.printer = j.printer) (hn : j'.number = j.number) : (s.setJob j').jobOf p n = some j' := by
  obtain ⟨rfl, rfl⟩ := jobOf_some h
  obtain ⟨-, before, after, split, others⟩ := List.find?_eq_some_iff_append.1 h
  simp only [State.jobOf, State.setJob, split, List.map_append, List.map_cons, he, beq_self_eq_true, if_true]
  rw [List.find?_append, List.find?_cons_of_pos (by simp [hp, hn])]
  cases hf : (before.map fun x => if x.entry == j.entry then j' else x).find? fun x => x.printer == j.printer && x.number == j.number with
  | none => rfl
  | some y =>
    obtain ⟨x, hx, rfl⟩ := List.mem_map.1 (List.mem_of_find?_eq_some hf)
    have := List.find?_some hf
    by_cases hxe : (x.entry == j.entry) = true
    · simp [hxe]
    · rw [if_neg hxe] at this
      exact absurd this (by simpa only [Bool.not_eq_true', Bool.not_eq_true] using others x hx)

/-- One message on its way is taken, and then those that it causes. -/
theorem run_one (s : State) (h : Hand) : Exchange.run (s, [h]) = runHands 31 (s.takeHand h).1 (s.takeHand h).2 := rfl

theorem runHands_nil (n : Nat) (s : State) : runHands n s [] = s := by
  cases n <;> rfl

theorem serviceTake_printBlock {s : State} (h : s.serviceWorks = true) (o : Party) (job k mark : Nat) (text : List Byte) :
    s.serviceTake o (.printBlock job k mark text) = s.block o job k mark text := by
  simp [State.serviceTake, h]

/-- A block of the PRINTING job. -/
theorem block_printing {s : State} {e : QueueEntry} (he : s.prn.printing = some e) {mark : Nat} (hm : mark ≤ 1) (k : Nat)
    (text : List Byte) : s.block e.origin e.job k mark text = s.jobBlock e k mark text := by
  simp [State.block, Nat.not_lt.2 hm, he]

/-- What each block of the PRINTING job does to the timers (R176). -/
def Printer.fresh (p : Printer) (now : Nat) : Printer := { p with inactivity := some (now + ms 5000), goTimer := none }

/-- The next block is answered HELD while the paper is out. -/
theorem jobBlock_paperOut {s : State} {k : Nat} (hp : s.pins.paperOut = true) (hw : s.prn.waiting = none)
    (hk : k = s.prn.lastTaken + 1) (e : QueueEntry) (mark : Nat) (text : List Byte) : s.jobBlock e k mark text =
      State.post { s with prn := s.prn.fresh s.clock.now } e.origin false (.held e.job k) := by
  have : ¬k = s.prn.lastTaken := by omega
  simp [State.jobBlock, State.nextBlock, hk, hp, hw, Printer.fresh, State.inMs]

/-- HELD for the current block of a job that is SENDING (R163). -/
theorem originTake_held {s : State} {p : Party} {n : Nat} {j : Job} {b : CurBlock} (hj : s.jobOf p n = some j)
    (hs : j.state = .sending) (hb : j.current = some b) (k : Nat) : s.originTake p (.held n k) =
      (if b.seq = k then s.setJob
        { j with current := some { b with sends := 0 }, answerTimer := none, holdTimer := some (s.clock.now + ms 2000),
                 heldSince := some (j.heldSince.getD s.clock.now) } else s, []) := by
  simp only [State.originTake, hj, State.blockHeld, hs, hb]
  rfl

/-- The HOLD timer of an own job offers the block again, and with the paper out it is held once more. -/
theorem resendBlock_own_held {s : State} {j : Job} {b : CurBlock} {p : QueueEntry} (hw : s.serviceWorks = true) (hs : j.state = .sending)
    (hown : j.printer = .own) (hj : s.jobOf .own j.number = some j) (hout : s.pins.paperOut = true) (hp : s.prn.printing = some p)
    (ho : p.origin = .own) (hn : p.job = j.number) (hk : b.seq = s.prn.lastTaken + 1) (hwait : s.prn.waiting = none) :
    (s.resendBlock j b 1).run = State.setJob { s with
        line := s.line.withdraw (isBlockOf j.number b.seq)
        prn := s.prn.fresh s.clock.now }
      { j with current := some { b with sends := 0 }, answerTimer := none, holdTimer := some (s.clock.now + ms 2000),
               heldSince := some (j.heldSince.getD s.clock.now) } := by
  let sent : Job := { j with current := some { b with sends := 1 }, answerTimer := none, holdTimer := none }
  let x : State := State.setJob { s with line := s.line.withdraw (isBlockOf j.number b.seq) } sent
  let mark := if b.line.isNone then 1 else 0
  let y : State := { x with prn := x.prn.fresh x.clock.now }
  have offered : s.resendBlock j b 1 = (x, [⟨true, .printBlock j.number b.seq mark (b.line.getD [])⟩]) := by
    have posted : s.resendBlock j b 1 = x.post j.printer true (.printBlock j.number b.seq mark (b.line.getD [])) := by
      simp only [State.resendBlock, State.sendBlock, State.exchangeTimer, if_pos hown]
      rfl
    rw [posted, hown]
    rfl
  have taken : x.takeHand ⟨true, .printBlock j.number b.seq mark (b.line.getD [])⟩ = (y, [⟨false, .held j.number b.seq⟩]) := by
    have block := block_printing (s := x) hp (mark := mark) (by simp only [mark]; split <;> decide) b.seq (b.line.getD [])
    rw [ho, hn] at block
    refine (serviceTake_printBlock (s := x) hw ..).trans (block.trans ?_)
    rw [jobBlock_paperOut (s := x) hout hwait hk, ho, hn]
    rfl
  have found : y.jobOf .own j.number = some sent := jobOf_setJob (s := { s with line := s.line.withdraw (isBlockOf j.number b.seq) })
    hj rfl rfl rfl
  have held := originTake_held found hs rfl b.seq
  rw [if_pos rfl] at held
  rw [offered, run_one, taken]
  change runHands 30 (y.originTake .own (.held j.number b.seq)).1 (y.originTake .own (.held j.number b.seq)).2 = _
  rw [held, runHands_nil]
  exact setJob_setJob (s := { s with line := s.line.withdraw (isBlockOf j.number b.seq) }) (j := sent) (by rfl) _

/-- Settles O42. -/
theorem blocksAreRepeatedThenAbandoned : Obligations.BlocksAreRepeatedThenAbandoned := by
  refine ⟨fun s e j d b p hm hj hs hown hof hd hb hstrap hout hp ho hn hk hw => ?_, fun s e j n d hm hj hs hp => ⟨fun b hb =>
    ⟨fun hd few => ?_, fun hd => ?_, fun hd many => ?_⟩, fun hd => ?_⟩⟩
  · refine (holdTimer_fires hm hj hs hd hb).trans (congrArg _ ((resendBlock_own_held (s := s.passTo d) (by
      simp [State.serviceWorks, State.isRunning, hm, hstrap]) hs hown (by simpa [State.jobOf] using hof) (by simpa using hout)
      (by simpa using hp) ho hn (by simpa using hk) (by simpa using hw)).trans ?_))
    simp [Printer.fresh]
  · refine (blockAnswerTimer_fires hm hj hs hd hb).trans ?_
    rw [if_pos few, resendBlock_station hp]
    simp
  · refine (holdTimer_fires hm hj hs hd hb).trans ?_
    rw [resendBlock_station hp]
    simp
  · have fires := blockAnswerTimer_fires hm hj hs hd hb
    rw [if_neg (Nat.not_lt.2 many), abandon_station hp, endJob_undone (by decide)] at fires
    refine ⟨_, fires, ?_, ?_, ?_, ?_, ?_, ?_⟩ <;> simp [Counters.jobEnded, jobAt_some hj]
  · have fires := holdingLimit_fires hm hj hs hp hd
    rw [abandon_station hp, endJob_undone (by decide)] at fires
    refine ⟨_, fires, ?_, ?_, ?_, ?_, ?_, ?_, ?_⟩ <;> simp [Counters.jobEnded, jobAt_some hj]

end Sys2Proof.Machine
end

section
/-!
PROOF. The answers of another station's printer to an origin job, and the DROP at both sides.
-/

namespace Sys2Proof.Machine

/-! ## The lines of a report, read for another job of the same report (R167) -/

/-- The next line depends on the state and on the job by the groups and their items alone. -/
theorem nextLine_congr {s s' : State} {j j' : Job} (size : ∀ g, s'.groupSize j' g = s.groupSize j g)
    (lines : ∀ g i, s'.itemLines j' g i = s.itemLines j g i) (fuel : Nat) (c : Cursor) :
    s'.nextLine j' fuel c = s.nextLine j fuel c := by
  induction fuel generalizing c with
  | zero => rfl
  | succ fuel ih => simp only [State.nextLine, size, lines, ih]

/-- The first line is the title. -/
theorem nextLine_title (s : State) (j : Job) : s.nextLine j 12 ⟨0, 0, 0, 0⟩ =
    some (j.kind.name ++ txt " STN" ++ num 2 s.stationNo ++ txt " SVY" ++ num 5 s.hdr.number, ⟨0, 1, 0, 1⟩) := rfl

/-- A block that is composed for another station's printer: the next line, or the END mark (R162, R167). -/
theorem composeBlock_station {j : Job} {n : Nat} (h : j.printer = .station n) (s : State) :
    (s.composeBlock j).run = (s.setJob { j with
      current := some ⟨j.nextSeq, (s.nextLine j 12 j.cursor).map (·.1), 1⟩
      nextSeq := j.nextSeq + 1
      cursor := ((s.nextLine j 12 j.cursor).map (·.2)).getD j.cursor
      answerTimer := some (s.clock.now + ms 500)
      holdTimer := none }).send
        (.printBlock j.number j.nextSeq (if ((s.nextLine j 12 j.cursor).map (·.1)).isNone then 1 else 0)
          (((s.nextLine j 12 j.cursor).map (·.1)).getD [])) n := by
  unfold State.composeBlock
  cases s.nextLine j 12 j.cursor with
  | none =>
    dsimp only
    rw [sendBlock_station (by exact h), run_nil]
    rfl
  | some lc =>
    dsimp only
    rw [sendBlock_station (by exact h), run_nil]
    rfl

/-! ## The answers of the printer (R160 to R164) -/

section
variable {s : State} {p : Party} {n : Nat} {j : Job} (hj : s.jobOf p n = some j)
include hj

theorem originTake_queued : s.originTake p (.queued n) = (s.nowQueued j, []) := by
  simp only [State.originTake, hj]

theorem originTake_refused (r : Nat) : s.originTake p (.refused n r) = (s.nowRefused j, []) := by
  simp only [State.originTake, hj]

theorem originTake_go : s.originTake p (.go n) = s.goAhead j := by
  simp only [State.originTake, hj]

theorem originTake_taken (k : Nat) : s.originTake p (.taken n k) = s.blockTaken j k := by
  simp only [State.originTake, hj]

theorem originTake_drop : s.originTake p (.drop n) = (s.endJob j .abandoned, []) := by
  simp only [State.originTake, hj]

end

theorem nowRefused_of_ne {j : Job} (h : j.state ≠ .sending) (s : State) : s.nowRefused j = s.endJob j .refused := by
  unfold State.nowRefused
  split
  · rfl
  · rfl
  next hs => exact absurd hs h

theorem goAhead_of_ne {j : Job} (h : j.state ≠ .sending) (s : State) :
    s.goAhead j = s.composeBlock { j with state := .sending, answerTimer := none, refreshTimer := none } := by
  unfold State.goAhead
  split
  · rfl
  · rfl
  next hs => exact absurd hs h

/-- Settles O43. -/
theorem answersOfThePrinter : Obligations.AnswersOfThePrinter := by
  intro rx n r s j takes hj
  have hj : (s.heard rx).jobOf (.station rx.sender.toNat) n.toNat = some j := hj
  obtain ⟨hp, hn⟩ := jobOf_some hj
  have queued := (exec_queued_takes takes n).trans (congrArg _ (congrArg Exchange.run (originTake_queued hj)))
  have refused := (exec_refused_takes takes n r).trans (congrArg _ (congrArg Exchange.run (originTake_refused hj r.toNat)))
  have go := (exec_go_takes takes n).trans (congrArg _ (congrArg Exchange.run (originTake_go hj)))
  rw [run_nil] at queued refused
  refine ⟨fun hs => queued.trans ?_, fun hs => queued.trans ?_, fun hs => refused.trans ?_,
    fun hs => ⟨refused.trans ?_, go.trans ?_⟩, fun hs hseq hc => ?_, fun k b hs hb => ?_⟩
  · simp only [State.nowQueued, hs, exchangeTimer_station hp]
    rfl
  · cases hs' : j.state with
    | asked => exact absurd hs' hs
    | queued | sending => simp only [State.nowQueued, hs']
  · rw [nowRefused_of_ne hs, endJob_undone (by decide)]
    rfl
  · simp only [State.nowRefused, hs]
  · simp only [State.goAhead, hs, run_nil]
  · intro title
    let sending : Job := { j with state := .sending, answerTimer := none, refreshTimer := none }
    have title' : (s.heard rx).nextLine sending 12 sending.cursor = some (title, ⟨0, 1, 0, 1⟩) :=
      (congrArg _ hc).trans (nextLine_title (s.heard rx) sending)
    refine go.trans ?_
    rw [goAhead_of_ne hs, composeBlock_station (j := sending) hp, title']
    have seq : sending.nextSeq = 1 := hseq
    have number : sending.number = j.number := rfl
    rw [seq]
    rfl
  · refine (exec_held_takes takes n k).trans ?_
    rw [originTake_held hj hs hb, run_nil]
    rfl

/-! ## TAKEN (R162, R163) -/

/-- The end of a SAG LIST whose last record raises the watermark: the header is written (R13). -/
theorem endJob_done_raises {s : State} {j : Job} {r : Nat} (hk : j.kind = .sagList) (hr : j.records.getLast? = some r)
    (hw : s.hdr.watermark < r) : s.endJob j .done = { s with
      hdr := { s.hdr with watermark := r, checkpoint := s.clock.survey }
      store := (j.records.foldl Store.unpin s.store).push (.header { s.hdr with watermark := r, checkpoint := s.clock.survey } false)
      ckpt := if s.inSurvey then some (s.inMs 10000) else none
      ctr := s.ctr.jobEnded .done
      rep := { s.rep with jobs := s.rep.jobs.filter fun x => x.entry != j.entry } } := by
  simp only [State.endJob, hk, hr, State.offerWatermark, hw]
  rfl

theorem endJob_done_stays {s : State} {j : Job} (h : ∀ r, j.kind = .sagList → j.records.getLast? = some r → r ≤ s.hdr.watermark) :
    s.endJob j .done = { s with
      store := j.records.foldl Store.unpin s.store
      ctr := s.ctr.jobEnded .done
      rep := { s.rep with jobs := s.rep.jobs.filter fun x => x.entry != j.entry } } := by
  unfold State.endJob
  dsimp only
  split
  next hk =>
    split
    next r hr =>
      unfold State.offerWatermark
      rw [if_neg (Nat.not_lt.2 (h r hk.2 hr))]
    · rfl
  · rfl

/-- A job whose current block is TAKEN: its answer and hold timers stop, and a holding ends (R162, R163). -/
def State.unheld (s : State) (j : Job) : Job :=
  { j with answerTimer := none, holdTimer := none, heldTicks := s.heldTotal j, heldSince := none }

theorem blockTaken_eq {s : State} {j : Job} {b : CurBlock} (hs : j.state = .sending) (hb : j.current = some b) :
    s.blockTaken j b.seq = if b.line.isSome then s.composeBlock (s.unheld j) else (s.endJob (s.unheld j) .done, []) := by
  unfold State.blockTaken State.unheld
  rw [hs, hb]
  exact if_pos rfl

/-- Settles O44. -/
theorem takenGoesOnOrEndsTheJob : Obligations.TakenGoesOnOrEndsTheJob := by
  intro rx n k s j b takes hj hs hb
  have hj : (s.heard rx).jobOf (.station rx.sender.toNat) n.toNat = some j := hj
  obtain ⟨hp, hn⟩ := jobOf_some hj
  have taken := (exec_taken_takes takes n k).trans (congrArg _ (congrArg Exchange.run (originTake_taken hj k.toNat)))
  refine ⟨fun other => taken.trans ?_, fun same last => ?_, fun same more => ?_⟩
  · simp only [State.blockTaken, hs, hb, if_neg other, run_nil]
  · let ended := (s.heard rx).unheld j
    have done : exec (.taken rx n k) s = .next ((s.heard rx).endJob ended .done) := by
      refine taken.trans ?_
      rw [← same, blockTaken_eq hs hb, last]
      exact congrArg _ (run_nil _)
    by_cases raises : ∃ r, j.kind = .sagList ∧ j.records.getLast? = some r ∧ s.hdr.watermark < r
    · obtain ⟨r, hk, hr, hw⟩ := raises
      rw [endJob_done_raises (s := s.heard rx) (j := ended) hk hr hw] at done
      refine ⟨_, done, rfl, rfl, rfl, rfl, rfl, rfl, fun r' _ hr' _ => ?_, fun low => absurd (low r hk hr) (by omega)⟩
      obtain rfl : r = r' := by simpa [hr] using hr'
      refine ⟨rfl, ?_⟩
      change (j.records.foldl Store.unpin s.store).writes ++ _ = _
      rw [foldl_unpin_eq]
    · have low : ∀ r, j.kind = .sagList → j.records.getLast? = some r → r ≤ s.hdr.watermark := fun r hk hr => by
        by_contra h
        exact raises ⟨r, hk, hr, by omega⟩
      rw [endJob_done_stays (s := s.heard rx) (j := ended) low] at done
      exact ⟨_, done, rfl, rfl, rfl, rfl, rfl, rfl, fun r hk hr hw => absurd (low r hk hr) (by omega), fun _ => ⟨rfl, rfl⟩⟩
  · intro next line
    let going := (s.heard rx).unheld j
    have same' : (s.heard rx).nextLine going 12 going.cursor = next := nextLine_congr (fun _ => rfl) (fun _ _ => rfl) 12 j.cursor
    refine taken.trans ?_
    rw [← same, blockTaken_eq hs hb, if_pos (Option.isSome_iff_ne_none.2 more)]
    refine congrArg _ ((composeBlock_station (j := going) hp (s.heard rx)).trans ?_)
    rw [same']
    rfl

/-! ## DROP (R160 to R164, R177, R178) -/

/-- The printer service once its PRINTING job has ended with a trailer, which enters a buffer with room (R177). -/
def Printer.endedWith (p : Printer) (origin : Party) (job : Nat) (trailer : List Byte) : Printer :=
  { p with
    state := .finishing
    queue := p.queue.filter fun x => !(x.origin == origin && x.job == job)
    waiting := none
    inactivity := none
    goTimer := none
    buffer := if p.buffer.length < 2 then p.buffer ++ [trailer] else p.buffer
    trailer := if p.buffer.length < 2 then none else some trailer }

/-- With no block pending, a trailer that waits enters a buffer with room. -/
theorem fillBuffer_trailer {s : State} {t : List Byte} (hw : s.prn.waiting = none) (ht : s.prn.trailer = some t)
    (room : s.prn.buffer.length < 2) :
    s.fillBuffer = ({ s with prn := { s.prn with buffer := s.prn.buffer ++ [t], trailer := none } }, []) := by
  unfold State.fillBuffer
  rw [if_pos room, hw, ht]

theorem fillBuffer_full {s : State} (full : 2 ≤ s.prn.buffer.length) : s.fillBuffer = (s, []) :=
  if_neg (Nat.not_lt.2 full)

theorem fillBuffer_none {s : State} (hw : s.prn.waiting = none) (ht : s.prn.trailer = none) : s.fillBuffer = (s, []) := by
  unfold State.fillBuffer
  split
  · rw [hw, ht]
  · rfl

theorem endPrinting_eq (s : State) (e : QueueEntry) (ended : Bool) :
    s.endPrinting e ended = ({ s with prn := s.prn.endedWith e.origin e.job (s.trailerOf e ended) }, []) := by
  let finishing : Printer := { s.prn.without e.origin e.job with
    state := .finishing, trailer := some (s.trailerOf e ended), waiting := none, inactivity := none, goTimer := none }
  by_cases room : s.prn.buffer.length < 2
  · refine (fillBuffer_trailer (s := { s with prn := finishing }) rfl rfl room).trans ?_
    simp only [Printer.endedWith, if_pos room]
    rfl
  · refine (fillBuffer_full (s := { s with prn := finishing }) (Nat.le_of_not_lt room)).trans ?_
    simp only [Printer.endedWith, if_neg room]
    rfl

/-- The trailer's text for a job of another station. -/
theorem trailerOf_station {e : QueueEntry} {n : Nat} (h : e.origin = .station n) (s : State) (ended : Bool) :
    s.trailerOf e ended = (if ended then txt "== END " else txt "** INCOMPLETE ") ++ num 2 n ++ txt "/" ++ num 3 e.job ++
      txt " LINES" ++ num 5 s.prn.lines := by
  have space : (if ended then txt "== END " else txt "** INCOMPLETE ") = (if ended then txt "== END" else txt "** INCOMPLETE") ++ sp := by
    cases ended <;> decide
  simp [State.trailerOf, State.jobTag, State.partyNumber, h, space]

theorem entryOf_some {p : Printer} {o : Party} {n : Nat} {e : QueueEntry} (h : p.entryOf o n = some e) : e.origin = o ∧ e.job = n := by
  simpa using List.find?_some h

/-- Settles O46. -/
theorem dropEndsAtBothSides : Obligations.DropEndsAtBothSides := by
  intro rx n s takes
  refine ⟨fun j hj none => ?_, fun e none works he => ?_⟩
  · have hj : (s.heard rx).jobOf (.station rx.sender.toNat) n.toNat = some j := hj
    refine (exec_drop_takes takes n).trans ?_
    rw [originTake_drop hj, andThen_nil, endJob_undone (by decide), serviceTake_drop_unknown (by exact none), run_nil]
    rfl
  · intro others trailer
    have none : (s.heard rx).jobOf (.station rx.sender.toNat) n.toNat = .none := none
    have he : (s.heard rx).prn.entryOf (.station rx.sender.toNat) n.toNat = some e := he
    obtain ⟨ho, hn⟩ := entryOf_some he
    have dropped : exec (.drop rx n) s = .next (if e.printing then (s.heard rx).endPrinting e false
        else ({ s.heard rx with prn := s.prn.without (.station rx.sender.toNat) n.toNat }, [])).run := by
      refine (exec_drop_takes takes n).trans ?_
      rw [originTake_drop_unknown none, andThen_nil]
      have works : (s.heard rx).serviceWorks = true := works
      simp only [State.serviceTake, works, State.dropped, he]
      rfl
    refine ⟨fun hp => dropped.trans ?_, fun hp => dropped.trans ?_⟩
    · rw [if_neg (by simp [hp]), run_nil]
      rfl
    · rw [if_pos hp, endPrinting_eq, run_nil, trailerOf_station ho, ho, hn]
      rfl

end Sys2Proof.Machine
end

section
/-!
PROOF. The printer service: asks, choices, blocks, timers, and the lines that leave the buffer.
-/

namespace Sys2Proof.Machine

/-! ## Asks (R174, R175) -/

theorem exec_printAsk_takes {s : State} {rx : Rx} (h : s.takes rx) (f : PrintAskFrame) : exec (.printAsk rx f) s =
    .next ((s.heard rx).serviceTake (.station rx.sender.toNat) (.printAsk f.job.toNat f.kind.toNat f.cls.toNat)).run :=
  congrArg _ (receive_takes h none _)

theorem serviceTake_printAsk {s : State} {k : ReportKind} {kind : Nat} (hw : s.serviceWorks = true) (hk : ReportKind.ofCode kind = some k)
    (o : Party) (job : Nat) (cls : Nat) : s.serviceTake o (.printAsk job kind cls) = s.ask o job k (cls == 1) := by
  simp [State.serviceTake, hw, hk]

/-- The queue entry that an ask makes. -/
def State.asked (s : State) (o : Party) (job : Nat) (k : ReportKind) (urgent : Bool) : QueueEntry := ⟨o, job, k, urgent, s.clock.now, false⟩

/-- An ask that joins a queue with room is answered QUEUED, and then the service chooses. -/
theorem appendAsk_room {s : State} (room : s.prn.queue.length < 8) (n job : Nat) (k : ReportKind) (urgent : Bool) :
    s.appendAsk (.station n) job k urgent = (State.send { s with
      prn := { s.prn with queue := s.prn.queue ++ [s.asked (.station n) job k urgent] } } (.queued job) n).chooseJob := by
  rw [State.appendAsk, if_neg (Nat.not_le.2 room)]
  rfl

/-- The service chooses nothing while it works on a job or the paper is out. -/
theorem chooseJob_busy {s : State} (h : s.prn.state ≠ .idle ∨ s.pins.paperOut = true) : s.chooseJob = (s, []) := by
  refine if_neg ?_
  rcases h with h | h <;> simp [h]

theorem chooseJob_idle {s : State} (hw : s.serviceWorks = true) (hi : s.prn.state = .idle) (hp : s.pins.paperOut = false) :
    s.chooseJob = match s.prn.choice s.clock.now with
      | some e => s.grant e
      | none => (s, []) := by
  simp only [State.chooseJob, hw, hi, hp]
  rfl

/-- The printer service once it has taken up a job (R175). -/
def Printer.granted (p : Printer) (e : QueueEntry) (now : Nat) (banner : List Byte) : Printer :=
  { p with
    state := .printing
    queue := p.queue.map fun x => if x.origin == e.origin && x.job == e.job then { x with printing := true } else x
    buffer := p.buffer ++ [banner]
    lastTaken := 0
    lines := 0
    waiting := none
    grants := pushBounded 3 p.grants e.origin
    inactivity := some (now + ms 5000)
    goTimer := some (now + ms 1000) }

/-- The banner of a job of station `n`. -/
def QueueEntry.bannerOf (n : Nat) (e : QueueEntry) : List Byte :=
  txt "== JOB " ++ num 2 n ++ txt "/" ++ num 3 e.job ++ txt " " ++ e.kind.name

theorem banner_station {e : QueueEntry} {n : Nat} (h : e.origin = .station n) (s : State) : s.banner e = e.bannerOf n := by
  have job : txt "== JOB " = txt "== JOB" ++ sp := by decide
  have space : txt " " = sp := by decide
  simp [QueueEntry.bannerOf, State.banner, State.jobTag, State.partyNumber, h, job, space]

theorem grant_station {s : State} {e : QueueEntry} {n : Nat} (h : e.origin = .station n) :
    s.grant e = (State.send { s with prn := s.prn.granted e s.clock.now (e.bannerOf n) } (.go e.job) n, []) := by
  rw [← banner_station h s]
  have posted : s.grant e = State.post { s with prn := s.prn.granted e s.clock.now (s.banner e) } e.origin false (.go e.job) := rfl
  rw [posted, h]
  rfl

theorem filter_other {p : Printer} {o : Party} {job : Nat} (h : p.entryOf o job = none) : (p.without o job) = p := by
  have : (p.queue.filter fun x => !(x.origin == o && x.job == job)) = p.queue :=
    List.filter_eq_self.2 fun x hx => by simpa only [Bool.not_eq_true', Bool.not_eq_true] using List.find?_eq_none.1 h x hx
  simp only [Printer.without, this]

/-- Settles O47. -/
theorem printAskIsAnswered : Obligations.PrintAskIsAnswered := by
  intro rx f s k takes hw hk
  have works : (s.heard rx).serviceWorks = true := hw
  have asked : exec (.printAsk rx f) s = .next ((s.heard rx).ask (.station rx.sender.toNat) f.job.toNat k (f.cls == 1)).run := by
    have cls : (f.cls.toNat == 1) = (f.cls == 1) := by
      rw [Bool.eq_iff_iff, beq_iff_eq, beq_iff_eq, BitVec.toNat_eq]
      rfl
    rw [exec_printAsk_takes takes, serviceTake_printAsk works hk, cls]
  have found (e : Option QueueEntry) (he : s.prn.entryOf (.station rx.sender.toNat) f.job.toNat = e) :
      (s.heard rx).prn.entryOf (.station rx.sender.toNat) f.job.toNat = e := he
  refine ⟨fun e he hkind hcls => asked.trans ?_, fun e he differs hp => asked.trans ?_, fun none full => asked.trans ?_,
    fun none room busy => asked.trans ?_, fun replaced => ?_⟩
  · simp only [State.ask, found _ he, if_pos (And.intro hkind hcls), post_station, run_nil]
  · simp only [State.ask, found _ he, if_neg differs, hp, if_true, post_station, run_nil]
  · have full : 8 ≤ (s.heard rx).prn.queue.length := full
    simp only [State.ask, found _ none, State.appendAsk, if_pos full, post_station, run_nil]
  · have room : (s.heard rx).prn.queue.length < 8 := room
    simp only [State.ask, found _ none, appendAsk_room room]
    rw [chooseJob_busy (by exact busy), run_nil]
    rfl
  · intro others new p queued room
    have joins : (s.heard rx).ask (.station rx.sender.toNat) f.job.toNat k (f.cls == 1) = queued.chooseJob := by
      cases he : s.prn.entryOf (.station rx.sender.toNat) f.job.toNat with
      | none =>
        have same : others = s.prn.queue := congrArg Printer.queue (filter_other he)
        have room : (s.heard rx).prn.queue.length < 8 := same ▸ room
        simp only [State.ask, found _ he, appendAsk_room room]
        simp only [queued, p, same]
        rfl
      | some e =>
        obtain ⟨hp, differs⟩ := replaced e he
        simp only [State.ask, found _ he, if_neg differs, hp]
        exact appendAsk_room (s := { s.heard rx with prn := s.prn.without (.station rx.sender.toNat) f.job.toNat }) room ..
    refine ⟨fun busy => asked.trans ?_, fun idle paper => ⟨fun alone => ?_, fun e n chosen ho => asked.trans ?_⟩⟩
    · rw [joins, chooseJob_busy (by exact busy), run_nil]
    · have eligible : p.eligible new = true := (p.eligible_iff new).2 ⟨rfl, fun ⟨_, y, hy, _, other⟩ => other (by
        simp only [p, alone, List.nil_append, List.mem_singleton] at hy
        rw [hy])⟩
      have queue : p.queue = [new] := by simp [p, alone]
      rw [Printer.choice_eq, queue]
      cases h : new.effective s.clock.now <;> simp [eligible, h]
    · have chosen' : queued.prn.choice queued.clock.now = some e := chosen
      rw [joins, chooseJob_idle (by exact hw) (by exact idle) (by exact paper), chosen']
      dsimp only
      rw [grant_station ho, run_nil]
      rfl

/-! ## The inputs (R173, R175, R163, R166) -/

/-- Settles O49. -/
theorem printerInputsActOnTheService : Obligations.PrinterInputsActOnTheService := by
  refine ⟨fun s => ⟨fun hw => congrArg Host.Outcome.next ?_, fun l => rfl⟩, fun s e k line j b works hp ho hw hj hs hb hk => congrArg Host.Outcome.next ?_,
    fun s works idle => ⟨fun none => congrArg Host.Outcome.next ?_, fun e n chosen ho => ?_⟩⟩
  · have none : State.holdOwnPending { s with pins := { s.pins with paperOut := true } } =
        ({ s with pins := { s.pins with paperOut := true } }, []) := by
      unfold State.holdOwnPending
      split
      next h => simp [hw] at h
      next => rfl
    rw [none, run_nil]
  · let x : State := { s with
      pins := { s.pins with paperOut := true }
      prn := { s.prn with waiting := none } }
    have held : State.holdOwnPending { s with pins := { s.pins with paperOut := true } } = (x, [⟨false, .held e.job k⟩]) := by
      have works : State.serviceWorks { s with pins := { s.pins with paperOut := true } } = true := works
      simp only [State.holdOwnPending, hp, hw, ho, works]
      rfl
    have taken := originTake_held (s := x) hj hs hb k
    rw [if_pos hk] at taken
    rw [held, run_one]
    change runHands 31 (x.originTake .own (.held e.job k)).1 (x.originTake .own (.held e.job k)).2 = _
    rw [taken, runHands_nil]
  · rw [chooseJob_idle (by exact works) (by exact idle) rfl]
    have none : Printer.choice s.prn s.clock.now = .none := none
    dsimp only
    rw [none, run_nil]
  · have granted : State.chooseJob { s with pins := { s.pins with paperOut := false } } =
        State.grant { s with pins := { s.pins with paperOut := false } } e := by
      rw [chooseJob_idle (by exact works) (by exact idle) rfl]
      dsimp only
      rw [chosen]
    rw [grant_station ho] at granted
    have run : exec .paperIn s = .next _ := congrArg Host.Outcome.next ((congrArg Exchange.run granted).trans (run_nil _))
    refine ⟨_, run, rfl, rfl, rfl, rfl, rfl, rfl, rfl, rfl, rfl, List.length_map .., fun x hx hxo hxj => ?_, rfl, rfl, rfl, rfl⟩
    obtain ⟨y, -, rfl⟩ := List.mem_map.1 hx
    by_cases h : (y.origin == e.origin && y.job == e.job) = true
    · rw [if_pos h]
    · rw [if_neg h] at hxo hxj
      exact absurd (by simp [hxo, hxj]) h

/-! ## Blocks (R176 to R178) -/

theorem exec_printBlock_takes {s : State} {rx : Rx} {f : PrintBlockFrame} (h : s.takes rx) (hf : f.WellFormed) :
    exec (.printBlock rx f) s = .next ((s.heard rx).serviceTake (.station rx.sender.toNat)
      (.printBlock f.job.toNat f.seq.toNat f.mark.toNat (keepText f.text))).run := by
  change execPrintBlock rx f s = _
  rw [execPrintBlock, if_pos hf, receive_takes h]
  rfl

section
variable {s : State} {k : Nat} (e : QueueEntry) (text : List Byte)

/-- The last taken line is answered again. -/
theorem jobBlock_again (hk : k = s.prn.lastTaken) :
    s.jobBlock e k 0 text = State.post { s with prn := s.prn.fresh s.clock.now } e.origin false (.taken e.job k) :=
  if_pos ⟨hk, rfl⟩

theorem jobBlock_next (hk : k = s.prn.lastTaken + 1) (mark : Nat) :
    s.jobBlock e k mark text = State.nextBlock { s with prn := s.prn.fresh s.clock.now } e k mark text :=
  (if_neg fun h : k = s.prn.lastTaken ∧ mark = 0 => by omega).trans (if_pos hk)

/-- A block under any other sequence ends the job. -/
theorem jobBlock_wrong {mark : Nat} (hm : ¬(k = s.prn.lastTaken ∧ mark = 0)) (hk : k ≠ s.prn.lastTaken + 1) :
    s.jobBlock e k mark text =
      (State.post { s with prn := s.prn.fresh s.clock.now } e.origin false (.drop e.job)).andThen fun s => s.endPrinting e false :=
  (if_neg hm).trans (if_neg hk)

/-- The next line enters a buffer with room. -/
theorem nextBlock_room (hp : s.pins.paperOut = false) (room : s.prn.buffer.length < 2) :
    s.nextBlock e k 0 text = s.takeLine e k text := by
  simp [State.nextBlock, hp, room]

/-- The next line waits before a full buffer. -/
theorem nextBlock_full (hp : s.pins.paperOut = false) (full : 2 ≤ s.prn.buffer.length) :
    s.nextBlock e k 0 text = ({ s with prn := { s.prn with waiting := some (k, text) } }, []) := by
  simp [State.nextBlock, hp, Nat.not_lt.2 full]

/-- The END block ends the job. -/
theorem nextBlock_end (hp : s.pins.paperOut = false) : s.nextBlock e k 1 text =
    (State.endPrinting { s with prn := { s.prn with lastEnded := some ⟨e.origin, e.job, k⟩ } } e true).andThen
      fun s => s.post e.origin false (.taken e.job k) := by
  simp [State.nextBlock, hp]

end

/-- A block of the PRINTING job of another station. -/
theorem printBlock_printing {rx : Rx} {f : PrintBlockFrame} {s : State} {e : QueueEntry} (takes : s.takes rx) (hf : f.WellFormed)
    (works : s.serviceWorks = true) (hp : s.prn.printing = some e) (ho : e.origin = .station rx.sender.toNat) (hj : e.job = f.job.toNat)
    (hm : f.mark.toNat ≤ 1) : exec (.printBlock rx f) s =
      .next ((s.heard rx).jobBlock e f.seq.toNat f.mark.toNat (keepText f.text)).run := by
  have works : (s.heard rx).serviceWorks = true := works
  rw [exec_printBlock_takes takes hf, serviceTake_printBlock works, ← ho, ← hj, block_printing (by exact hp) hm]

/-- Settles O50. -/
theorem blocksAreTakenInOrder : Obligations.BlocksAreTakenInOrder := by
  intro rx f s e takes hf works hp ho hj p
  have taken := printBlock_printing takes hf works hp ho hj
  have mark (h : f.mark = 0) : f.mark.toNat = 0 := by rw [h]; rfl
  refine ⟨fun hm hk => ?_, fun hm hk paper hw => ?_, fun hm hk paper room => ?_, fun hm hk paper full => ?_⟩
  · rw [taken (by simp [mark hm]), mark hm, jobBlock_again (s := s.heard rx) e _ hk, ho, post_station, run_nil]
    rfl
  · rw [taken hm, jobBlock_paperOut (s := s.heard rx) paper hw hk, ho, post_station, run_nil]
    rfl
  · rw [taken (by simp [mark hm]), mark hm, jobBlock_next (s := s.heard rx) e _ hk, nextBlock_room e _ (by exact paper) (by exact room),
      State.takeLine, ho, post_station, run_nil, hk]
    rfl
  · rw [taken (by simp [mark hm]), mark hm, jobBlock_next (s := s.heard rx) e _ hk, nextBlock_full e _ (by exact paper) (by exact full),
      run_nil]
    rfl

/-- An ended job has left the queue. -/
theorem endedWith_entryOf (p : Printer) (o : Party) (job : Nat) (t : List Byte) : (p.endedWith o job t).entryOf o job = none := by
  refine List.find?_eq_none.2 fun x hx => ?_
  have other : (!(x.origin == o && x.job == job)) = true := (List.mem_filter.1 hx).2
  simpa only [Bool.not_eq_true', Bool.not_eq_true] using other

/-- The trailer of an ended job enters a buffer with room, or waits. -/
theorem endedWith_trailer (p : Printer) (o : Party) (job : Nat) (t : List Byte) :
    (p.buffer.length < 2 → (p.endedWith o job t).buffer = p.buffer ++ [t] ∧ (p.endedWith o job t).trailer = none) ∧
      (2 ≤ p.buffer.length → (p.endedWith o job t).buffer = p.buffer ∧ (p.endedWith o job t).trailer = some t) :=
  ⟨fun h => ⟨if_pos h, if_pos h⟩, fun h => ⟨if_neg (Nat.not_lt.2 h), if_neg (Nat.not_lt.2 h)⟩⟩

/-- Settles O51. -/
theorem jobsEndWithTheirTrailer : Obligations.JobsEndWithTheirTrailer := by
  refine ⟨fun rx f s takes hf => ⟨fun ignored => ?_, fun hm strap other => ?_⟩, fun rx f s e takes hf works hp ho hj => ?_⟩
  · rw [exec_printBlock_takes takes hf]
    rcases ignored with unknown | unfitted
    · cases works : (s.heard rx).serviceWorks with
      | false => rw [serviceTake_stopped works, run_nil]
      | true => rw [serviceTake_printBlock works, State.block, if_pos unknown, run_nil]
    · have stopped : (s.heard rx).serviceWorks = false := by simp [State.serviceWorks, State.heard, unfitted]
      rw [serviceTake_stopped stopped, run_nil]
  · have works : (s.heard rx).serviceWorks = true := by
      simp [State.serviceWorks, State.heard, strap, State.isRunning, takes.1]
    have stray : (s.heard rx).block (.station rx.sender.toNat) f.job.toNat f.seq.toNat f.mark.toNat (keepText f.text) =
        (s.heard rx).strayBlock (.station rx.sender.toNat) f.job.toNat f.seq.toNat f.mark.toNat := by
      rw [State.block, if_neg (Nat.not_lt.2 hm)]
      split
      next e he => exact if_neg (other e he)
      next => rfl
    have one : f.mark.toNat = 1 ↔ f.mark = 1 := by
      rw [BitVec.toNat_eq]
      rfl
    rw [exec_printBlock_takes takes hf, serviceTake_printBlock works, stray, State.strayBlock]
    by_cases ended : f.mark = 1 ∧ s.prn.lastEnded = some ⟨.station rx.sender.toNat, f.job.toNat, f.seq.toNat⟩
    · rw [if_pos ⟨one.2 ended.1, ended.2⟩, if_pos ended, post_station, run_nil]
    · rw [if_neg fun h => ended ⟨one.1 h.1, h.2⟩, if_neg ended, post_station, run_nil]
  · intro tail finished
    have taken := printBlock_printing takes hf works hp ho hj
    have trailed (x : State) (ended : Bool) : x.trailerOf e ended = (if ended then txt "== END " else txt "** INCOMPLETE ") ++
        (num 2 rx.sender.toNat ++ txt "/" ++ num 3 e.job ++ txt " LINES" ++ num 5 x.prn.lines) := by
      rw [trailerOf_station ho]
      simp only [List.append_assoc]
    refine ⟨fun hm hk paper => ?_, fun hm again other => ?_⟩
    · have mark : f.mark.toNat = 1 := by rw [hm]; rfl
      have run := taken (by rw [mark])
      rw [mark, jobBlock_next (s := s.heard rx) e _ hk, nextBlock_end e _ (by exact paper), endPrinting_eq, andThen_nil,
        trailed, ho, post_station, run_nil] at run
      have buffer := endedWith_trailer s.prn e.origin e.job (txt "== END " ++ tail)
      refine ⟨_, run, ⟨rfl, ?_, rfl, rfl, rfl, rfl, rfl, buffer.1, buffer.2⟩, ?_, rfl⟩
      · rw [ho]
        exact endedWith_entryOf ..
      · rw [ho]
        rfl
    · have run := taken hm
      rw [jobBlock_wrong (s := s.heard rx) e _ (fun h => again ⟨BitVec.eq_of_toNat_eq h.2, h.1⟩) other, ho, post_station,
        andThen_nil, endPrinting_eq, run_nil, trailed] at run
      have buffer := endedWith_trailer s.prn e.origin e.job (txt "** INCOMPLETE " ++ tail)
      exact ⟨_, run, ⟨rfl, endedWith_entryOf .., rfl, rfl, rfl, rfl, rfl, buffer.1, buffer.2⟩, rfl, rfl⟩

end Sys2Proof.Machine
end

section
/-!
PROOF. The timers of the printer service, and the lines that leave its buffer.
-/

namespace Sys2Proof.Machine

/-- A timer of the printer service that runs expires at its time. -/
theorem atTimer_fires {s : State} {t : Option Nat} {d : Nat} (hm : s.mode = .running) (hd : t = some d) (f : State → State) :
    s.atTimer t f = f (s.passTo d) := by
  simp [State.atTimer, hd, State.isRunning, hm]

/-- Settles O52. -/
theorem printerTimers : Obligations.PrinterTimers := by
  intro s e n d hm hp ho
  have hp : (s.passTo d).prn.printing = some e := by simpa using hp
  refine ⟨fun hd => congrArg Host.Outcome.next ((atTimer_fires hm hd _).trans ?_), fun hd => ?_⟩
  · dsimp only
    rw [hp]
    dsimp only
    rw [ho, post_station, run_nil]
    simp [State.inMs]
  · intro trailer
    have run : exec .inactivityTimer s = .next (State.send { s.passTo d with
        prn := (s.passTo d).prn.endedWith e.origin e.job trailer } (.drop e.job) n) := by
      refine congrArg Host.Outcome.next ((atTimer_fires hm hd _).trans ?_)
      dsimp only
      rw [hp]
      dsimp only
      rw [endPrinting_eq, andThen_nil, trailerOf_station ho]
      have lines : (s.passTo d).prn.lines = s.prn.lines := by simp
      rw [lines]
      change Exchange.run (State.post _ e.origin _ _) = _
      simp only [ho, post_station, run_nil]
      rfl
    have buffer := endedWith_trailer (s.passTo d).prn e.origin e.job trailer
    rw [passTo_prn] at buffer
    refine ⟨_, run, rfl, ?_, ?_, endedWith_entryOf .., rfl, rfl, rfl, rfl, ?_, ?_, ?_⟩
    · simpa using buffer.1
    · simpa using buffer.2
    all_goals simp

/-! ## LINE_PRINTED (R173, R176, R177) -/

/-- A pending block enters a buffer with room. -/
theorem fillBuffer_pending {s : State} {e : QueueEntry} {k : Nat} {line : List Byte} (hw : s.prn.waiting = some (k, line))
    (hp : s.prn.printing = some e) (room : s.prn.buffer.length < 2) : s.fillBuffer = s.takeLine e k line := by
  rw [State.fillBuffer, if_pos room, hw, hp]

/-- The printer service once the first line has left the buffer. -/
def Printer.shifted (p : Printer) : Printer := { p with buffer := p.buffer.tail, port := portBytes (p.buffer.headD []) }

/-- After the last line of a job or of a restart the service becomes IDLE and chooses. -/
def State.afterLine (s : State) : Exchange :=
  if s.prn.state = .finishing ∧ s.prn.buffer = [] ∧ s.prn.trailer = none then { s with prn := { s.prn with state := .idle } }.chooseJob
  else (s, [])

/-- LINE_PRINTED with READY and paper, where nothing enters the buffer before its first line leaves it. -/
theorem linePrinted_shifts {s : State} (works : s.serviceWorks = true) (ready : s.pins.ready = true)
    (paper : s.pins.paperOut = false) (first : s.fillBuffer = (s, [])) (some : s.prn.buffer ≠ []) :
    exec .linePrinted s = .next ((State.fillBuffer { s with prn := s.prn.shifted }).andThen State.afterLine).run := by
  refine congrArg Host.Outcome.next ?_
  rw [works, ready, paper]
  change Exchange.run (s.fillBuffer.andThen fun s => if s.prn.buffer = [] then (s, []) else s.headPrinted) = _
  rw [first, andThen_nil, if_neg some]
  rfl

theorem andThen_afterLine {t : State} (busy : t.prn.state = .printing ∨ t.prn.buffer ≠ []) (hs : List Hand) :
    Exchange.andThen (t, hs) State.afterLine = (t, hs) := by
  have : t.afterLine = (t, []) := if_neg fun h => by
    rcases busy with b | b
    · simp [h.1] at b
    · exact b h.2.1
  simp only [Exchange.andThen, this, List.append_nil]

/-- A line that is composed for the own printer is a hand-over, and no timer runs (R166). -/
theorem composeBlock_own {s : State} {j : Job} {line : List Byte} {c : Cursor} (h : j.printer = .own)
    (hn : s.nextLine j 12 j.cursor = some (line, c)) : s.composeBlock j = (s.setJob { j with
      current := some ⟨j.nextSeq, some line, 1⟩
      nextSeq := j.nextSeq + 1
      cursor := c
      answerTimer := none
      holdTimer := none }, [⟨true, .printBlock j.number j.nextSeq 0 line⟩]) := by
  have sent (j' : Job) (b : CurBlock) (hp : j'.printer = .own) : s.sendBlock j' b 1 = (s.setJob { j' with
      current := some { b with sends := 1 }, answerTimer := none, holdTimer := none },
        [⟨true, .printBlock j'.number b.seq (if b.line.isNone then 1 else 0) (b.line.getD [])⟩]) := by
    have posted : s.sendBlock j' b 1 = State.post (s.setJob { j' with
      current := some { b with sends := 1 }, answerTimer := none, holdTimer := none }) j'.printer true
        (.printBlock j'.number b.seq (if b.line.isNone then 1 else 0) (b.line.getD [])) := by
      simp only [State.sendBlock, State.exchangeTimer, if_pos hp]
    rw [posted, hp]
    rfl
  simp only [State.composeBlock, hn]
  exact sent _ _ h

/-- Settles O53. -/
theorem linesLeaveTheBuffer : Obligations.LinesLeaveTheBuffer := by
  intro s head rest works ready paper hb port
  have some : s.prn.buffer ≠ [] := by simp [hb]
  have tail : s.prn.shifted.buffer = rest := by simp [Printer.shifted, hb]
  have room (h : rest.length = 1) : s.prn.shifted.buffer.length < 2 := by rw [tail]; omega
  have full (h : rest.length = 1) : s.fillBuffer = (s, []) := fillBuffer_full (by simp [hb, h])
  have shifted : s.prn.shifted = { s.prn with buffer := rest, port := port } := by
    simp [Printer.shifted, hb, portBytes, port]
  refine ⟨fun e n k line one hs hp ho hw => ?_, fun e k line following j b c one hs hp ho hw hj hst hcur hk hline hseq hnext => ?_,
    fun trailer one hw ht => ?_, fun hs last hw ht hq => ?_⟩
  · have next := fillBuffer_pending (s := { s with prn := s.prn.shifted }) hw hp (room one)
    rw [State.takeLine, ho, post_station] at next
    rw [linePrinted_shifts works ready paper (full one) some, next, andThen_afterLine (.inl (by exact hs)), run_nil, shifted]
  · have next := fillBuffer_pending (s := { s with prn := s.prn.shifted }) hw hp (room one)
    let y : State := { s with prn := { s.prn.shifted with
      buffer := s.prn.shifted.buffer ++ [line], lastTaken := k, lines := s.prn.shifted.lines + 1, waiting := none } }
    have entered : State.takeLine { s with prn := s.prn.shifted } e k line = (y, [⟨false, .taken e.job k⟩]) := by
      rw [State.takeLine, ho]
      rfl
    obtain ⟨hown, hnum⟩ := jobOf_some hj
    let going := y.unheld j
    have line' : y.nextLine going 12 going.cursor = .some (following, c) :=
      (nextLine_congr (fun _ => rfl) (fun _ _ => rfl) 12 j.cursor).trans hnext
    have composed := composeBlock_own (s := y) (j := going) hown line'
    have taken : y.takeHand ⟨false, .taken e.job k⟩ = y.composeBlock going := by
      change y.originTake .own (.taken e.job k) = _
      rw [originTake_taken (by exact hj), ← hk, blockTaken_eq hst hcur, if_pos (Option.isSome_iff_ne_none.2 hline)]
    let z := y.setJob { going with
      current := .some ⟨going.nextSeq, .some following, 1⟩
      nextSeq := going.nextSeq + 1
      cursor := c
      answerTimer := none
      holdTimer := none }
    have offered : z.takeHand ⟨true, .printBlock going.number going.nextSeq 0 following⟩ = ({ z with
        prn := { z.prn.fresh z.clock.now with waiting := .some (k + 1, following) } }, []) := by
      have seq : going.nextSeq = k + 1 := hseq
      have two : 2 ≤ z.prn.buffer.length := by
        change 2 ≤ (s.prn.shifted.buffer ++ [line]).length
        rw [tail, List.length_append, one]
        exact le_rfl
      have block := block_printing (s := z) (e := e) hp (mark := 0) (by decide) (k + 1) following
      rw [jobBlock_next (s := z) (k := k + 1) e following (by rfl), nextBlock_full e _ (by exact paper) (by exact two), ho] at block
      rw [seq]
      change z.serviceTake .own (.printBlock j.number (k + 1) 0 following) = _
      rw [serviceTake_printBlock (by exact works), hnum]
      exact block
    have run : runHands 31 z [⟨true, .printBlock going.number going.nextSeq 0 following⟩] = { z with
        prn := { z.prn.fresh z.clock.now with waiting := .some (k + 1, following) } } := by
      change runHands 30 (z.takeHand _).1 ([] ++ (z.takeHand _).2) = _
      rw [offered]
      rfl
    rw [linePrinted_shifts works ready paper (full one) some, next, entered, andThen_afterLine (.inl (by exact hs)), run_one, taken,
      composed]
    refine (congrArg Host.Outcome.next run).trans ?_
    simp only [z, y, shifted, going, State.unheld, hseq]
    rfl
  · have next := fillBuffer_trailer (s := { s with prn := s.prn.shifted }) hw ht (room one)
    rw [linePrinted_shifts works ready paper (full one) some, next, andThen_afterLine (.inr (by simp)), run_nil, shifted]
  · rw [linePrinted_shifts works ready paper (fillBuffer_none hw ht) some, fillBuffer_none (by exact hw) (by exact ht), andThen_nil,
      State.afterLine, if_pos ⟨hs, tail.trans last, ht⟩, chooseJob_idle (by exact works) rfl (by exact paper)]
    have none : Printer.choice { s.prn.shifted with state := .idle } s.clock.now = .none := by
      rw [Printer.choice_eq]
      simp [Printer.shifted, hq]
    dsimp only
    rw [none, run_nil, shifted, last]

end Sys2Proof.Machine
end

section
/-!
PROOF. The frames that no block takes, and the roster entry that expires.
-/

namespace Sys2Proof.Machine

/-! ## Frames as receptions (R187 to R189) -/

/-- A frame that is heard but addressed to another station refreshes the roster alone. -/
theorem receive_elsewhere {s : State} {rx : Rx} (hm : s.mode = .running) (ho : s.sup.opening = none) (h15 : rx.sender ≠ 15)
    (hs : s.ownNumber ≠ some rx.sender.toNat) (ha : rx.addressee ≠ 15) (hn : s.ownNumber ≠ some rx.addressee.toNat)
    (b : Option BeaconInfo) (take : State → State) :
    s.receive rx b take = { s with line := s.line.refresh rx.sender.toNat s.clock.now b } := by
  have sender : ¬rx.sender.toNat = 15 := fun h => h15 (BitVec.eq_of_toNat_eq (by simpa using h))
  have addressee : ¬rx.addressee.toNat = 15 := fun h => ha (BitVec.eq_of_toNat_eq (by simpa using h))
  have elsewhere : ¬State.addressed { s with line := s.line.refresh rx.sender.toNat s.clock.now b } rx = true := by
    have hn : State.ownNumber { s with line := s.line.refresh rx.sender.toNat s.clock.now b } ≠ some rx.addressee.toNat := hn
    simp [State.addressed, addressee, hn]
  unfold State.receive
  rw [if_neg (by simp [State.listening, hm, ho, sender]), if_neg (by simpa using hs)]
  exact if_neg elsewhere

/-- A command that is a frame is its reception, but for a frame that its lengths make bad; a well-formed one is not bad and has a
sender of 0 to 14. -/
theorem exec_frame {pr : BitVec 3} {c : Instr} {f : RawFrame} (h : frameOf pr c = some f) :
    ∃ (ok : Bool) (take : State → State), (c.wellFormed = true → ok = true ∧ f.sender ≠ 15) ∧
      ∀ s, exec c s = .next (if ok then s.receive ⟨f.sender, f.addressee⟩ (rosterFields c) take else s) := by
  have plain {rx : Rx} {c : Instr} {take : State → State} (fields : f.sender = rx.sender ∧ f.addressee = rx.addressee)
      (wf : c.wellFormed = true → rx.sender ≠ 15)
      (run : ∀ s, exec c s = .next (s.receive rx (rosterFields c) take)) : ∃ (ok : Bool) (take : State → State),
      (c.wellFormed = true → ok = true ∧ f.sender ≠ 15) ∧
      ∀ s, exec c s = .next (if ok then s.receive ⟨f.sender, f.addressee⟩ (rosterFields c) take else s) := by
    obtain ⟨hs, ha⟩ := fields
    exact ⟨true, take, fun h => ⟨rfl, hs ▸ wf h⟩, fun s => by rw [hs, ha]; exact run s⟩
  have measured {rx : Rx} {c : Instr} {ok : Prop} [Decidable ok] {take : State → State}
      (fields : f.sender = rx.sender ∧ f.addressee = rx.addressee) (wf : c.wellFormed = true → rx.sender ≠ 15 ∧ ok)
      (run : ∀ s, exec c s = .next (if ok then s.receive rx (rosterFields c) take else s)) : ∃ (ok : Bool) (take : State → State),
      (c.wellFormed = true → ok = true ∧ f.sender ≠ 15) ∧
      ∀ s, exec c s = .next (if ok then s.receive ⟨f.sender, f.addressee⟩ (rosterFields c) take else s) := by
    obtain ⟨hs, ha⟩ := fields
    refine ⟨decide ok, take, fun h => ⟨decide_eq_true (wf h).2, hs ▸ (wf h).1⟩, fun s => ?_⟩
    rw [hs, ha, run s]
    simp only [decide_eq_true_eq]
  cases c with
  | surveyClose rx n =>
    obtain rfl := Option.some.inj h
    exact plain ⟨rfl, rfl⟩ of_decide_eq_true fun _ => rfl
  | printRequest rx x =>
    obtain rfl := Option.some.inj h
    exact plain ⟨rfl, rfl⟩ of_decide_eq_true fun _ => rfl
  | recordRead rx r k =>
    obtain rfl := Option.some.inj h
    exact plain ⟨rfl, rfl⟩ of_decide_eq_true fun _ => rfl
  | stationQuery rx =>
    obtain rfl := Option.some.inj h
    exact plain ⟨rfl, rfl⟩ of_decide_eq_true fun _ => rfl
  | beacon rx x =>
    obtain rfl := Option.some.inj h
    exact plain ⟨rfl, rfl⟩ of_decide_eq_true fun _ => rfl
  | trigger rx x =>
    obtain rfl := Option.some.inj h
    exact plain ⟨rfl, rfl⟩ of_decide_eq_true fun _ => rfl
  | printAsk rx x =>
    obtain rfl := Option.some.inj h
    exact plain ⟨rfl, rfl⟩ of_decide_eq_true fun _ => rfl
  | queued rx n =>
    obtain rfl := Option.some.inj h
    exact plain ⟨rfl, rfl⟩ of_decide_eq_true fun _ => rfl
  | refused rx n r =>
    obtain rfl := Option.some.inj h
    exact plain ⟨rfl, rfl⟩ of_decide_eq_true fun _ => rfl
  | go rx n =>
    obtain rfl := Option.some.inj h
    exact plain ⟨rfl, rfl⟩ of_decide_eq_true fun _ => rfl
  | taken rx n k =>
    obtain rfl := Option.some.inj h
    exact plain ⟨rfl, rfl⟩ of_decide_eq_true fun _ => rfl
  | held rx n k =>
    obtain rfl := Option.some.inj h
    exact plain ⟨rfl, rfl⟩ of_decide_eq_true fun _ => rfl
  | drop rx n =>
    obtain rfl := Option.some.inj h
    exact plain ⟨rfl, rfl⟩ of_decide_eq_true fun _ => rfl
  | surveyOpen rx x =>
    obtain rfl := Option.some.inj h
    exact measured ⟨rfl, rfl⟩ of_decide_eq_true fun _ => rfl
  | note rx x =>
    obtain rfl := Option.some.inj h
    exact measured ⟨rfl, rfl⟩ of_decide_eq_true fun _ => rfl
  | printBlock rx x =>
    obtain rfl := Option.some.inj h
    exact measured ⟨rfl, rfl⟩ of_decide_eq_true fun _ => rfl
  | _ => simp [frameOf] at h

/-- A conflict with the own number is heard by a part that listens and has one. -/
theorem exec_stationConflict (s : State) :
    exec .stationConflict s = .next (if s.listening && s.ownNumber.isSome then s.conflict else s) := rfl

/-- A frame of no block's kind is its reception alone. -/
theorem exec_otherFrame (rx : Rx) (k : BitVec 5) (s : State) :
    exec (.otherFrame rx k) s = .next (s.receive rx none fun s => s) := rfl

/-- Settles O56: every frame is a reception (`exec_frame`), and a reception that no block takes is one of the four cases of
R187 to R189. -/
theorem framesThatNoBlockTakes : Obligations.FramesThatNoBlockTakes := by
  unfold Obligations.FramesThatNoBlockTakes
  refine ⟨fun s deaf => ⟨fun c pr f frame => ?_, fun rx k => ?_, ?_⟩,
    fun s => ⟨fun _ => rfl, fun rx k takes => ?_, fun rx k fifteen => ?_, fun running free n own => ⟨?_, fun rx k sender named => ?_⟩⟩,
    fun c pr f s frame => ⟨fun fifteen => ?_, fun wf running free => ⟨fun own => ?_, fun foreign single other => ?_⟩⟩⟩
  · obtain ⟨ok, take, -, run⟩ := exec_frame frame
    rw [run, receive_deaf (deaf.imp id .inl), ite_self]
  · rw [exec_otherFrame, receive_deaf (deaf.imp id .inl)]
  · have quiet : s.listening = false := by
      rcases deaf with h | h <;> simp [State.listening, Option.isSome_iff_ne_none, h]
    rw [exec_stationConflict, quiet]
    rfl
  · rw [exec_otherFrame, receive_takes takes]
    rfl
  · rw [exec_otherFrame, receive_deaf (.inr (.inr fifteen))]
  · have listens : (s.listening && s.ownNumber.isSome) = true := by simp [State.listening, running, free, own]
    rw [exec_stationConflict, if_pos listens]
    rfl
  · rw [exec_otherFrame, receive_own running free named (by rw [own, sender])]
    rfl
  · obtain ⟨ok, take, -, run⟩ := exec_frame frame
    rw [run, receive_deaf (.inr (.inr fifteen)), ite_self]
  · obtain ⟨ok, take, whole, run⟩ := exec_frame frame
    obtain ⟨rfl, named⟩ := whole wf
    rw [run, receive_own running free named own]
    rfl
  · obtain ⟨ok, take, whole, run⟩ := exec_frame frame
    obtain ⟨rfl, named⟩ := whole wf
    rw [run, receive_elsewhere running free named foreign single other]
    rfl

/-! ## The roster entry that expires (R194) -/

theorem foldl_satAdd (l : List Job) {n : Nat} (h : n ≤ 65535) : l.foldl (fun k _ => satAdd k 1) n = satAdd n l.length := by
  induction l generalizing n with
  | nil => exact (Nat.min_eq_left h).symm
  | cons j l ih =>
    rw [List.foldl_cons, ih (n := satAdd n 1) (Nat.min_le_right ..)]
    simp only [satAdd, List.length_cons]
    omega

/-- Several jobs abandoned one after another. -/
theorem foldl_abandoned (l : List Job) {s : State} (h : s.ctr.jobsAbandoned ≤ 65535) :
    l.foldl (fun s j => s.endJob j .abandoned) s = { s with
      store := l.foldl (fun st j => j.records.foldl Store.unpin st) s.store
      ctr := { s.ctr with jobsAbandoned := satAdd s.ctr.jobsAbandoned l.length }
      rep := { s.rep with jobs := s.rep.jobs.filter fun x => !(l.map (·.entry)).contains x.entry } } := by
  induction l generalizing s with
  | nil =>
    have all : (s.rep.jobs.filter fun x => !(([] : List Job).map (·.entry)).contains x.entry) = s.rep.jobs :=
      List.filter_eq_self.2 fun _ _ => rfl
    have count : satAdd s.ctr.jobsAbandoned ([] : List Job).length = s.ctr.jobsAbandoned := Nat.min_eq_left h
    rw [all, count]
    rfl
  | cons j l ih =>
    rw [List.foldl_cons, endJob_undone (by decide), ih (Nat.min_le_right ..)]
    have count : satAdd (satAdd s.ctr.jobsAbandoned 1) l.length = satAdd s.ctr.jobsAbandoned (j :: l).length := by
      simp only [satAdd, List.length_cons]
      omega
    have jobs : ((s.rep.jobs.filter fun x => x.entry != j.entry).filter fun x => !(l.map (·.entry)).contains x.entry) =
        s.rep.jobs.filter fun x => !((j :: l).map (·.entry)).contains x.entry := by
      rw [List.filter_filter]
      refine List.filter_congr fun x _ => ?_
      rw [List.map_cons, List.contains_cons, Bool.not_or, Bool.and_comm]
      rfl
    dsimp only [Counters.jobEnded]
    rw [count, jobs]
    rfl

/-- Of jobs in entries of their own, those whose entry is none of the chosen ones are those not chosen. -/
theorem filter_entries {l : List Job} (h : (l.map (·.entry)).Nodup) (p : Job → Bool) :
    (l.filter fun x => !((l.filter p).map (·.entry)).contains x.entry) = l.filter fun j => !p j := by
  refine List.filter_congr fun x hx => congrArg _ (Bool.eq_iff_iff.2 ⟨fun hc => ?_, fun hp => ?_⟩)
  · obtain ⟨y, hy, he⟩ := List.mem_map.1 (List.contains_iff_mem.1 hc)
    obtain ⟨hy, hp⟩ := List.mem_filter.1 hy
    rwa [List.inj_on_of_nodup_map h hx hy he.symm]
  · exact List.contains_iff_mem.2 (List.mem_map_of_mem (List.mem_filter.2 ⟨hx, hp⟩))

/-- The jobs at a station's printer that are QUEUED. -/
def queuedAt (n : Nat) (j : Job) : Bool := j.printer == .station n && j.state == .queued

theorem loseQueued_eq {s : State} (distinct : (s.rep.jobs.map (·.entry)).Nodup) (h : s.ctr.jobsAbandoned ≤ 65535) (n : Nat) :
    s.loseQueued n = { s with
      store := (s.rep.jobs.filter (queuedAt n)).foldl (fun st j => j.records.foldl Store.unpin st) s.store
      ctr := { s.ctr with jobsAbandoned := satAdd s.ctr.jobsAbandoned (s.rep.jobs.filter (queuedAt n)).length }
      rep := { s.rep with jobs := s.rep.jobs.filter fun j => !queuedAt n j } } := by
  rw [← filter_entries distinct]
  exact foldl_abandoned _ h

theorem exec_rosterExpiry {s : State} {n : BitVec 4} {e : RosterEntry} (run : s.mode = .running)
    (entry : s.line.entryOf n.toNat = some e) :
    exec (.rosterExpiry n) s = .next ((s.passTo (e.lastFrame + ms 3000)).loseStation n.toNat) := by
  show execRosterExpiry n s = _
  unfold execRosterExpiry
  rw [entry]
  exact congrArg _ (if_pos (by rw [State.isRunning, run]; rfl))

theorem passTo_inSurvey (s : State) (t : Nat) : (s.passTo t).inSurvey = s.inSurvey := by
  unfold State.inSurvey State.isRunning
  rw [passTo_mode, passTo_hdr]

/-- The roster without a station. -/
def Line.without (l : Line) (n : Nat) : Line := { l with roster := l.roster.filter fun x => x.station != n }

theorem loseStation_eq {s : State} (distinct : (s.rep.jobs.map (·.entry)).Nodup) (h : s.ctr.jobsAbandoned ≤ 65535) (n : Nat) :
    s.loseStation n = { s with
      line := s.line.without n
      store := (s.rep.jobs.filter (queuedAt n)).foldl (fun st j => j.records.foldl Store.unpin st) s.store
      ctr := { s.ctr with jobsAbandoned := satAdd s.ctr.jobsAbandoned (s.rep.jobs.filter (queuedAt n)).length }
      rep := { s.rep with jobs := s.rep.jobs.filter fun j => !queuedAt n j }
      prn := s.prn.loseOrigin n
      tb := if s.inSurvey = true ∧ s.tb.state = .peer ∧ s.tb.source = some n then
        s.tb.choose s.hdr.params.hz { s with line := s.line.without n }.peerChoice else s.tb } := by
  have losing := loseQueued_eq (s := { s with line := s.line.without n }) distinct h n
  have acting : s.loseStation n = (fun q : State => if q.inSurvey && q.tb.state == .peer && q.tb.source == some n then q.choosePeer
      else q) { State.loseQueued { s with line := s.line.without n } n with prn := s.prn.loseOrigin n } := rfl
  rw [acting, losing]
  have fold (x : State) : (if x.inSurvey && x.tb.state == .peer && x.tb.source == some n then x.choosePeer else x) = { x with
      tb := if x.inSurvey = true ∧ x.tb.state = .peer ∧ x.tb.source = some n then
        x.tb.choose x.hdr.params.hz x.peerChoice else x.tb } := by
    have test : (x.inSurvey && x.tb.state == .peer && x.tb.source == some n) =
        decide (x.inSurvey = true ∧ x.tb.state = .peer ∧ x.tb.source = some n) := by
      simp only [Bool.decide_and, Bool.decide_eq_true, Bool.and_assoc, beq_eq_decide]
    rw [test]
    simp only [decide_eq_true_eq]
    split <;> rfl
  exact fold _

/-- What a state that differs from `s` in its clock and its notes alone is left with. -/
theorem loseStation_left {s q : State} {n : Nat} (distinct : (s.rep.jobs.map (·.entry)).Nodup)
    (count : s.ctr.jobsAbandoned ≤ 65535) (survey : q.inSurvey = s.inSurvey) (rep : q.rep = s.rep) (ctr : q.ctr = s.ctr)
    (tb : q.tb = s.tb) (hdr : q.hdr = s.hdr) :
    (q.loseStation n).line = q.line.without n ∧
      (q.loseStation n).rep = { s.rep with jobs := s.rep.jobs.filter fun j => !queuedAt n j } ∧
      (q.loseStation n).store = (s.rep.jobs.filter (queuedAt n)).foldl (fun st j => j.records.foldl Store.unpin st) q.store ∧
      (q.loseStation n).ctr = { s.ctr with
        jobsAbandoned := satAdd s.ctr.jobsAbandoned (s.rep.jobs.filter (queuedAt n)).length } ∧
      (q.loseStation n).prn = q.prn.loseOrigin n ∧
      (q.loseStation n).tb = (if s.inSurvey = true ∧ s.tb.state = .peer ∧ s.tb.source = some n then
        s.tb.choose s.hdr.params.hz { q with line := q.line.without n }.peerChoice else s.tb) ∧
      (q.loseStation n).clock = q.clock ∧ (q.loseStation n).hdr = q.hdr ∧ (q.loseStation n).cap = q.cap ∧
      (q.loseStation n).ev = q.ev := by
  rw [loseStation_eq (by rwa [rep]) (by rwa [ctr]), ← survey, ← tb, ← hdr, ← rep, ← ctr]
  exact ⟨rfl, rfl, rfl, rfl, rfl, rfl, rfl, rfl, rfl, rfl⟩

/-- Settles O59: the three watchers act one after another (`loseStation_left`). -/
theorem rosterEntryExpires : Obligations.RosterEntryExpires := by
  unfold Obligations.RosterEntryExpires
  intro s n e run entry distinct saturated gone lost
  have count : s.ctr.jobsAbandoned ≤ 65535 := saturated _ (by simp [Counters.list])
  obtain ⟨line, rep, store, ctr, prn, tb, clock, hdr, cap, ev⟩ := loseStation_left (s := s) (n := n.toNat) distinct count
    (passTo_inSurvey s (e.lastFrame + ms 3000)) (passTo_rep ..) (passTo_ctr ..) (passTo_tb ..) (passTo_hdr ..)
  refine ⟨_, exec_rosterExpiry run entry, by rw [line, passTo_line]; rfl, ?_, rep, by rw [store, passTo_store]; rfl, ctr,
    by rw [prn, passTo_prn]; rfl, by rw [tb, line], by rw [clock, passTo_now], by rw [hdr, passTo_hdr], by rw [cap, passTo_cap],
    by rw [ev, passTo_ev]⟩
  rw [line]
  refine List.find?_eq_none.2 fun x hx => ?_
  simpa using (List.mem_filter.1 hx).2

end Sys2Proof.Machine
end

section
/-!
PROOF. The crossings, the intervals, the reference move and the timers of the timebase.
-/

namespace Sys2Proof.Machine

/-! ## Means and ranges (R30, R31) -/

theorem periodInRange_iff (hz p : Nat) : periodInRange hz p = true ↔
    (if hz = 50 then 695652 else 579710) ≤ p ∧ p ≤ (if hz = 50 then 941176 else 784313) := by
  unfold periodInRange
  split <;> simp

theorem meanOf_le {l : List Nat} {n : Nat} (h : ∀ x ∈ l, x ≤ n) : meanOf l ≤ n := by
  have hs : l.sum ≤ l.length * n := by simpa using List.sum_le_card_nsmul l n h
  exact Nat.div_le_of_le_mul hs

theorem le_meanOf {l : List Nat} {n : Nat} (hne : l ≠ []) (h : ∀ x ∈ l, n ≤ x) : n ≤ meanOf l := by
  have hs : l.length * n ≤ l.sum := by simpa using List.card_nsmul_le_sum l n h
  exact (Nat.le_div_iff_mul_le (List.length_pos_iff.2 hne)).2 (by rwa [Nat.mul_comm])

/-- The mean of periods in range is in range. -/
theorem meanOf_inRange {hz : Nat} {l : List Nat} (hne : l ≠ []) (h : ∀ x ∈ l, periodInRange hz x = true) :
    periodInRange hz (meanOf l) = true :=
  (periodInRange_iff ..).2 ⟨le_meanOf hne fun x hx => ((periodInRange_iff ..).1 (h x hx)).1,
    meanOf_le fun x hx => ((periodInRange_iff ..).1 (h x hx)).2⟩

theorem lastOf_ne_nil {α : Type} {n : Nat} {l : List α} (hn : 0 < n) (h : l ≠ []) : lastOf n l ≠ [] := by
  have hl := List.length_pos_iff.2 h
  refine List.ne_nil_of_length_pos ?_
  simp only [lastOf, List.length_drop]
  omega

theorem length_lastOf {α : Type} (n : Nat) (l : List α) : (lastOf n l).length = min n l.length := by
  simp only [lastOf, List.length_drop]
  omega

theorem lastOf_short {α : Type} {n : Nat} {l : List α} (h : l.length ≤ n) : lastOf n l = l := by
  rw [lastOf, Nat.sub_eq_zero_of_le h, List.drop_zero]

theorem le_foldl_max (l : List Nat) (b : Nat) : b ≤ l.foldl max b ∧ ∀ x ∈ l, x ≤ l.foldl max b := by
  induction l generalizing b with
  | nil => exact ⟨Nat.le_refl b, fun _ h => nomatch h⟩
  | cons a l ih =>
    obtain ⟨hb, hl⟩ := ih (max b a)
    refine ⟨(Nat.le_max_left ..).trans hb, fun x hx => ?_⟩
    rcases List.mem_cons.1 hx with rfl | hx
    · exact (Nat.le_max_right ..).trans hb
    · exact hl x hx

theorem foldl_min_le (l : List Nat) (b : Nat) : l.foldl min b ≤ b ∧ ∀ x ∈ l, l.foldl min b ≤ x := by
  induction l generalizing b with
  | nil => exact ⟨Nat.le_refl b, fun _ h => nomatch h⟩
  | cons a l ih =>
    obtain ⟨hb, hl⟩ := ih (min b a)
    refine ⟨hb.trans (Nat.min_le_left ..), fun x hx => ?_⟩
    rcases List.mem_cons.1 hx with rfl | hx
    · exact hb.trans (Nat.min_le_right ..)
    · exact hl x hx

theorem foldl_max_mem (l : List Nat) (b : Nat) : l.foldl max b = b ∨ l.foldl max b ∈ l := by
  induction l generalizing b with
  | nil => exact .inl rfl
  | cons a l ih =>
    rcases ih (max b a) with h | h
    · rcases Nat.le_total a b with hab | hab
      · exact .inl (by rw [List.foldl_cons, h, Nat.max_eq_left hab])
      · exact .inr (by rw [List.foldl_cons, h, Nat.max_eq_right hab]; exact List.mem_cons_self ..)
    · exact .inr (List.mem_cons_of_mem _ h)

theorem foldl_min_mem (l : List Nat) (b : Nat) : l.foldl min b = b ∨ l.foldl min b ∈ l := by
  induction l generalizing b with
  | nil => exact .inl rfl
  | cons a l ih =>
    rcases ih (min b a) with h | h
    · rcases Nat.le_total a b with hab | hab
      · exact .inr (by rw [List.foldl_cons, h, Nat.min_eq_right hab]; exact List.mem_cons_self ..)
      · exact .inl (by rw [List.foldl_cons, h, Nat.min_eq_left hab])
    · exact .inr (List.mem_cons_of_mem _ h)

/-- The greatest and the least of a list lie within `d` exactly when any two of its elements do. -/
theorem spread_le_iff {l : List Nat} {d : Nat} (h : l ≠ []) :
    l.foldl max 0 - l.foldl min (l.headD 0) ≤ d ↔ ∀ a ∈ l, ∀ b ∈ l, a - b ≤ d := by
  have low : l.foldl min (l.headD 0) ∈ l := by
    obtain ⟨x, l, rfl⟩ := List.exists_cons_of_ne_nil h
    exact (foldl_min_mem (x :: l) x).elim (fun e => List.mem_cons.2 (.inl e)) id
  have high : l.foldl max 0 ∈ l := by
    refine (foldl_max_mem l 0).elim (fun e => ?_) id
    have zero : l.headD 0 = 0 := by
      obtain ⟨x, l, rfl⟩ := List.exists_cons_of_ne_nil h
      exact Nat.le_zero.1 (e ▸ (le_foldl_max (x :: l) 0).2 x (List.mem_cons_self ..))
    obtain ⟨x, l, rfl⟩ := List.exists_cons_of_ne_nil h
    rw [e]
    exact List.mem_cons.2 (.inl zero.symm)
  refine ⟨fun hd a ha b hb => ?_, fun hall => hall _ high _ low⟩
  have h1 := (le_foldl_max l 0).2 a ha
  have h2 := (foldl_min_le l (l.headD 0)).2 b hb
  omega

/-- The acquisition test, with its differences said of every two of the 8 intervals (R31). -/
theorem acquired_iff (hz : Nat) (h : List Nat) : acquired hz h = true ↔ h.length = 8 ∧ (∀ a ∈ h, periodInRange hz a = true) ∧
    ∀ a ∈ h, ∀ b ∈ h, a - b ≤ h.sum / 8 * 5 / 1000 := by
  unfold acquired
  rw [Bool.and_eq_true, Bool.and_eq_true, beq_iff_eq, List.all_eq_true, decide_eq_true_eq, and_assoc]
  refine and_congr_right fun len => and_congr_right fun _ => ?_
  rw [spread_le_iff (List.ne_nil_of_length_eq_add_one len), meanOf, len]

/-! ## Intervals by timebase state (R31 to R35) -/

section
variable {tb : Timebase} {hz i : Nat}

theorem interval_locked (h : tb.state = .locked) : tb.interval hz i =
    if periodInRange hz i then { tb with period := meanOf (lastOf 4 tb.history) }.indexReset else (tb.holdover, .unjudged) := by
  unfold Timebase.interval
  rw [h]

theorem interval_seeking (h : tb.state = .free ∨ tb.state = .peer) : tb.interval hz i =
    if acquired hz tb.history then (tb.lock tb.history, .nothing) else (tb, .nothing) := by
  unfold Timebase.interval
  rcases h with h | h <;> rw [h]

theorem interval_holdover (h : tb.state = .holdover) : tb.interval hz i =
    if returnQualifies hz tb.period i then
      if tb.qual + 1 = 2 then (tb.lock (lastOf 2 tb.history), .nothing) else ({ tb with qual := tb.qual + 1 }, .nothing)
    else ({ tb with qual := 0 }, .nothing) := by
  unfold Timebase.interval
  rw [h]

end

theorem returnQualifies_iff (hz p i : Nat) : returnQualifies hz p i = true ↔
    periodInRange hz i = true ∧ i ≤ p + p * 2 / 100 ∧ p ≤ i + p * 2 / 100 := by
  unfold returnQualifies
  rw [Bool.and_eq_true, Bool.and_eq_true, decide_eq_true_eq, decide_eq_true_eq, and_assoc]
  exact and_congr_right fun _ => by omega

/-- Two intervals lock the timebase at their mean. -/
theorem lock_two {tb : Timebase} {l : List Nat} (h : l.length = 2) : tb.lock l = { tb with
    state := .locked
    history := l
    period := l.sum / 2
    nextPeriod := none
    resetNext := true
    cycle := 0
    held := 0
    qual := 0
    source := none } := by
  unfold Timebase.lock
  rw [lastOf_short (by omega), meanOf, h]

/-! ## The reference move (R27) -/

theorem reference_stays {tb : Timebase} {states : List ChState} (h : states.getD tb.ref .normal ≠ .interrupted) :
    tb.reference states = (tb, .nothing) := if_neg h

theorem reference_moves {tb : Timebase} {states : List ChState} (h : states.getD tb.ref .normal = .interrupted) :
    tb.reference states = match (List.range 3).find? fun i => states.getD i .normal != .interrupted with
      | some r =>
        let moved := { tb with ref := r, history := [], lastCrossing := none, armLow := false, armHigh := false, qual := 0 }
        if tb.state = .locked then (moved.holdover, .unjudged) else (moved, .nothing)
      | none => (tb, .nothing) := if_pos h

theorem getD_interrupted {states : List ChState} {i : Nat} :
    states.getD i .normal = .interrupted ↔ states[i]? = some .interrupted := by
  rw [List.getD_eq_getElem?_getD]
  cases states[i]? <;> simp

/-- The lowest voltage channel that is not INTERRUPTED. -/
theorem find_reference {states : List ChState} {r : Nat} (h3 : r < 3) (hr : states[r]? ≠ some .interrupted)
    (hq : ∀ q, q < r → states[q]? = some .interrupted) :
    ((List.range 3).find? fun i => states.getD i .normal != .interrupted) = some r := by
  refine List.find?_range_eq_some.2 ⟨?_, List.mem_range.2 h3, fun q hlt => ?_⟩
  · simpa only [bne_iff_ne, ne_eq, getD_interrupted] using hr
  · simpa only [Bool.not_eq_true', bne_eq_false_iff_eq, getD_interrupted] using hq q hlt

theorem find_no_reference {states : List ChState} (h : ∀ x ∈ states, x = .interrupted) (h3 : states.length = 3) :
    ((List.range 3).find? fun i => states.getD i .normal != .interrupted) = none := by
  refine List.find?_eq_none.2 fun i hi => ?_
  have hlt : i < states.length := h3 ▸ List.mem_range.1 hi
  have : states[i]? = some .interrupted := by rw [List.getElem?_eq_getElem hlt, h _ (List.getElem_mem hlt)]
  simpa only [Bool.not_eq_true, bne_eq_false_iff_eq, getD_interrupted] using this

/-! ## Crossings (R28, R29) -/

/-- The watch with an instant's sample in it: the arming marks of that sample among them (R28). -/
def Timebase.armed (tb : Timebase) (un t : Nat) (xs : List Int) : Timebase := { tb with
  armLow := decide (tb.armLow = true ∨ xs.getD tb.ref 0 ≤ -((un / 5 : Nat) : Int))
  armHigh := decide (tb.armHigh = true ∨ ((un / 5 : Nat) : Int) ≤ xs.getD tb.ref 0)
  prev := some (t, xs) }

theorem watch_first {tb : Timebase} (h : tb.prev = none) (hz un t : Nat) (xs : List Int) :
    tb.watch hz un t xs = (tb.armed un t xs, .nothing) := by
  unfold Timebase.watch
  rw [h]
  simp only [Timebase.armed, Bool.decide_or, Bool.decide_eq_true]

theorem watch_next {tb : Timebase} {ta : Nat} {old : List Int} (h : tb.prev = some (ta, old)) (hz un t : Nat) (xs : List Int) :
    tb.watch hz un t xs =
      if old.getD tb.ref 0 < 0 ∧ 0 ≤ xs.getD tb.ref 0 ∧ (tb.armed un t xs).armLow = true ∧ (tb.armed un t xs).armHigh = true then
        (tb.armed un t xs).crossing hz (crossingTime ta t (old.getD tb.ref 0) (xs.getD tb.ref 0))
      else (tb.armed un t xs, .nothing) := by
  unfold Timebase.watch
  rw [h]
  simp only [Timebase.armed, Bool.decide_or, Bool.decide_eq_true]

/-- A crossing that follows another forms an interval with it. -/
theorem crossing_interval {tb : Timebase} {l : Nat} (h : tb.lastCrossing = some l) (hz t : Nat) :
    tb.crossing hz t = Timebase.interval { tb with
      armLow := false
      armHigh := false
      lastCrossing := some t
      history := pushBounded 8 tb.history (t - l) } hz (t - l) := by
  unfold Timebase.crossing
  rw [h]

theorem crossing_first {tb : Timebase} (h : tb.lastCrossing = none) (seeking : tb.state ≠ .locked) (hz t : Nat) :
    tb.crossing hz t = ({ tb with armLow := false, armHigh := false, lastCrossing := some t }, .nothing) := by
  unfold Timebase.crossing
  rw [h]
  exact if_neg seeking

/-- Settles O21: the cases of the watch, of an interval in each state, and of the reference test. -/
theorem lockedFollowsItsCrossings : Obligations.LockedFollowsItsCrossings := by
  unfold Obligations.LockedFollowsItsCrossings
  refine ⟨?_, fun tb hz i locked some => ⟨fun inRange => ⟨?_, fun all => ?_⟩, fun out => ?_⟩, fun tb hz i seeking => ?_,
    fun tb hz i holding => ?_, fun tb states three ref => ⟨?_, ?_⟩⟩
  · intro tb hz un t xs mark b low high armed
    refine ⟨fun first => watch_first first .., ?_⟩
    intro ta old next a tick taken
    refine ⟨fun unmet => ?_, fun below above hl hh => ?_⟩
    · rw [watch_next next]
      exact if_neg fun ⟨below, above, hl, hh⟩ => unmet ⟨below, above, of_decide_eq_true hl, of_decide_eq_true hh⟩
    · rw [watch_next next, if_pos ⟨below, above, decide_eq_true hl, decide_eq_true hh⟩]
      exact ⟨fun l last => crossing_interval (tb := tb.armed un t xs) last .., fun none seeking =>
        crossing_first (tb := tb.armed un t xs) none seeking ..⟩
  · rw [interval_locked locked, if_pos inRange]
    rfl
  · rw [interval_locked locked, if_pos inRange]
    exact meanOf_inRange (lastOf_ne_nil (by decide) some) all
  · rw [interval_locked locked, out]
    rfl
  · intro met
    rw [interval_seeking seeking]
    refine ⟨fun h => ?_, fun h => if_neg fun hc => h ((acquired_iff ..).1 hc)⟩
    have four : (lastOf 4 tb.history).length = 4 := by rw [length_lastOf, h.1]; rfl
    rw [if_pos ((acquired_iff ..).2 h), Timebase.lock, meanOf, four]
  · intro fits
    rw [interval_holdover holding]
    refine ⟨fun h one two => ?_, fun h one => ?_, fun h => if_neg fun hc => h ((returnQualifies_iff ..).1 hc)⟩
    · rw [if_pos ((returnQualifies_iff ..).2 h), if_pos (by rw [one]), lock_two (by rw [length_lastOf]; omega)]
    · rw [if_pos ((returnQualifies_iff ..).2 h), if_neg (by omega)]
  · rintro (h | h)
    · exact reference_stays fun hc => h (getD_interrupted.1 hc)
    · by_cases hr : states.getD tb.ref .normal = .interrupted
      · rw [reference_moves hr, find_no_reference h three]
      · exact reference_stays hr
  · intro r interrupted h3 hr hq moved
    rw [reference_moves (getD_interrupted.2 interrupted), find_reference h3 hr hq]
    rfl

/-! ## The timers (R34 to R38) -/

theorem exec_crossingTimeout {s : State} {l : Nat} (hs : s.inSurvey = true) (ht : s.tb.state = .locked)
    (hl : s.tb.lastCrossing = some l) :
    exec .crossingTimeout s = .next (State.trySettle { s.passTo (l + 3 * s.tb.period / 2) with
      tb := (s.passTo (l + 3 * s.tb.period / 2)).tb.holdover
      har := (s.passTo (l + 3 * s.tb.period / 2)).har.hear .unjudged }) := by
  show execCrossingTimeout s = _
  unfold execCrossingTimeout
  rw [hl]
  exact congrArg _ (if_pos (by rw [hs, ht]; rfl))

/-- The outcome of a choice, field by field (R36, R38). -/
theorem choosePeer_eq {s q : State} (tb : q.tb = s.tb) (hdr : q.hdr = s.hdr) : q.choosePeer = { q with tb :=
    match q.peerChoice with
    | some (n, f) => { s.tb with state := .peer, nextPeriod := some (40000000000 / f), source := some n, held := 0, qual := 0 }
    | none => { s.tb with state := .free, period := nominalPeriod s.hdr.params.hz, nextPeriod := none, source := none,
                          held := 0, qual := 0 } } := by
  rw [← tb, ← hdr, State.choosePeer]
  rcases q.peerChoice with _ | ⟨n, f⟩ <;> rfl

/-- Settles O22: the holdover of R34, and the choice of R37 (`choose_eq`). -/
theorem timebaseTimersHoldAndChoose : Obligations.TimebaseTimersHoldAndChoose := by
  unfold Obligations.TimebaseTimersHoldAndChoose
  refine ⟨fun s l survey locked last => ⟨_, exec_crossingTimeout survey locked last, ?_⟩, fun s survey holding count => ?_,
    fun s n b survey peer source beacon => ?_⟩
  · rw [trySettle_tb, trySettle_clock, trySettle_line, trySettle_cap, trySettle_lev, trySettle_hdr, trySettle_rep, trySettle_pins]
    exact ⟨congrArg Timebase.holdover (passTo_tb ..), passTo_now .., passTo_line .., passTo_cap .., passTo_lev .., passTo_hdr ..,
      passTo_rep .., passTo_pins ..⟩
  · have expired : execHoldoverExpiry s = .next s.choosePeer :=
      congrArg _ (if_pos (by rw [survey, holding, decide_eq_true count]; rfl))
    exact (show exec .holdoverExpiry s = _ from expired).trans (congrArg _ (choosePeer_eq rfl rfl))
  · have lapsed : execPeerSourceLapse s = .next (s.passTo (b + ms 2000)).choosePeer := by
      have lapse : (s.tb.source.bind s.line.entryOf).bind (·.lastBeacon) = some b := by
        rw [source]
        exact beacon
      unfold execPeerSourceLapse
      rw [if_pos (by rw [survey, peer]; rfl), lapse]
    exact (show exec .peerSourceLapse s = _ from lapsed).trans (congrArg _ (choosePeer_eq (passTo_tb ..) (passTo_hdr ..)))

end Sys2Proof.Machine
end

section
/-!
PROOF. NOTE frames: those ignored, the entries that join the table, and the corrections.
-/

namespace Sys2Proof.Machine

/-! ## The table (R146 to R149) -/

theorem eraseP_here {α : Type} {p : α → Bool} {before after : List α} {x : α} (hx : p x = true) (hb : ∀ y ∈ before, p y = false) :
    (before ++ x :: after).eraseP p = before ++ after := by
  rw [List.eraseP_append_right _ (by simpa using hb), List.eraseP_cons_of_pos hx]

section
variable {t before after : List NoteEntry} {e gone : NoteEntry}

theorem joinNotes_room (room : t.length < 32) (sites : e.site = true → (t.filter (·.site)).length < 4) :
    joinNotes t e = (t ++ [e], 0) := by
  unfold joinNotes
  rw [if_neg (by simpa using sites), if_pos room]

theorem joinNotes_site (site : e.site = true) (four : 4 ≤ (t.filter (·.site)).length) :
    joinNotes t e = (t.eraseP (·.site) ++ [e], 0) := by
  unfold joinNotes
  rw [if_pos (by simp [site, four])]

theorem joinNotes_full (full : 32 ≤ t.length) (sites : e.site = true → (t.filter (·.site)).length < 4) :
    joinNotes t e = ((evict t).1 ++ [e], (evict t).2) := by
  unfold joinNotes
  rw [if_neg (by simpa using sites), if_neg (by omega)]

theorem evict_expired (hg : gone.expired = true) (hb : ∀ x ∈ before, x.expired = false) :
    evict (before ++ gone :: after) = (before ++ after, 0) := by
  unfold evict
  rw [if_pos (List.any_eq_true.2 ⟨gone, by simp, hg⟩), eraseP_here hg hb]

theorem evict_early (active : ∀ x ∈ before ++ gone :: after, x.expired = false) (hg : gone.site = false)
    (hb : ∀ x ∈ before, x.site = true) : evict (before ++ gone :: after) = (before ++ after, 1) := by
  have none : ¬((before ++ gone :: after).any (·.expired)) = true := by
    rw [List.any_eq_true]
    rintro ⟨x, hx, he⟩
    exact absurd he (by simp [active x hx])
  unfold evict
  rw [if_neg none, if_pos (List.any_eq_true.2 ⟨gone, by simp, by rw [hg]; rfl⟩),
    eraseP_here (by rw [hg]; rfl) fun x hx => by rw [hb x hx]; rfl]

/-- The number granted goes into the new entry alone. -/
theorem setNoteRecord_join {id : Nat} (known : ∀ x ∈ t, x.id ≠ id) (he : e.id = id) (r : Option Nat) :
    setNoteRecord (t ++ [e]) id r = t ++ [{ e with record := r }] := by
  have others : t.map (fun x => if x.id == id then { x with record := r } else x) = t :=
    (List.map_congr_left fun x hx => if_neg (by simpa using known x hx)).trans (List.map_id t)
  unfold setNoteRecord
  rw [List.map_append, others, List.map_cons, if_pos (by simpa using he)]
  rfl

end

/-! ## Asking for a NOTE record (R150) -/

theorem Store.writeEntry_nv (st : Store) (i : Nat) : (st.writeEntry i).nv = st.nv := rfl

theorem Store.issue_nv {st u : Store} {t n : Nat} {q : CreateRequest} (h : st.issue t q = some (u, n)) : u.nv = st.nv := by
  unfold Store.issue at h
  split at h
  · exact nomatch h
  · dsimp only at h
    split_ifs at h
    obtain ⟨rfl, -⟩ := Prod.mk.inj (Option.some.inj h)
    rfl

theorem Store.create_nv (st : Store) (t q : Nat) (r : CreateRequest) : (st.create t q r).1.nv = st.nv := by
  unfold Store.create
  split
  · rfl
  · split
    · next h => exact (Store.issue_nv h).trans (st.reclaim_nv _)
    · exact st.reclaim_nv _

theorem storeOnePage_snd (s : State) (tag : Tag) (id : Option Nat) (bs : List Byte) :
    (s.storeOnePage tag id bs).2 = (s.create ⟨tag, none, id, 1⟩).2 := by
  rcases h : s.create ⟨tag, none, id, 1⟩ with ⟨u, _ | r⟩
  · rw [storeOnePage_refused h]
  · rw [storeOnePage_granted h]

theorem storeOnePage_ctr (s : State) (tag : Tag) (id : Option Nat) (bs : List Byte) :
    (s.storeOnePage tag id bs).1.ctr = (s.create ⟨tag, none, id, 1⟩).1.ctr := by
  rcases h : s.create ⟨tag, none, id, 1⟩ with ⟨u, _ | r⟩
  · rw [storeOnePage_refused h]
  · rw [storeOnePage_granted h]

theorem storeOnePage_nv (s : State) (tag : Tag) (id : Option Nat) (bs : List Byte) :
    (s.storeOnePage tag id bs).1.store.nv = s.store.nv := by
  rcases h : s.create ⟨tag, none, id, 1⟩ with ⟨u, _ | r⟩
  · rw [storeOnePage_refused h]
    exact (congrArg (·.1.store.nv) h).symm.trans (Store.create_nv ..)
  · rw [storeOnePage_granted h]
    exact (congrArg (·.1.store.nv) h).symm.trans (Store.create_nv ..)

/-! ## NOTE frames (R144, R145) -/

/-- The state in which the record of a note is asked for: the table has changed, and an entry expired early is counted. -/
def State.noted (s : State) (n : Note) : State := { s with
  notes := (applyNote s.notes n).1
  ctr := { s.ctr with notesExpiredEarly := satAdd s.ctr.notesExpiredEarly (applyNote s.notes n).2 } }

theorem takeNote_correction {n : Note} (h : n.kind = 3) (s : State) (scope : Nat) :
    s.takeNote n scope = ((s.noted n).storeOnePage .note (some n.id) (noteBytes n scope s.provisional)).1 := if_pos h

theorem takeNote_entry {n : Note} (h : n.kind ≠ 3) (s : State) (scope : Nat) :
    s.takeNote n scope = { ((s.noted n).storeOnePage .note (some n.id) (noteBytes n scope s.provisional)).1 with
      notes := setNoteRecord ((s.noted n).storeOnePage .note (some n.id) (noteBytes n scope s.provisional)).1.notes n.id
        ((s.noted n).storeOnePage .note (some n.id) (noteBytes n scope s.provisional)).2 } := if_neg h

theorem exec_note_takes {s : State} {rx : Rx} (h : s.takes rx) {f : NoteFrame} (wf : f.WellFormed) :
    exec (.note rx f) s = .next ((s.heard rx).noteFrame rx.addressee.toNat f) :=
  congrArg _ ((if_pos wf).trans (receive_takes h none _))

theorem noteFrame_ignored {s : State} {f : NoteFrame}
    (h : s.hdr.state = .idle ∨ f.id = 0 ∨ f.kind = 0 ∨ 3 < f.kind.toNat ∨ s.knownNote f.id.toNat = true) (a : Nat) :
    s.noteFrame a f = s := by
  refine if_pos ?_
  rcases h with h | h | h | h | h
  · exact .inl h
  · exact .inr (.inl h)
  · exact .inr (.inr (.inl (by rw [h]; decide)))
  · exact .inr (.inr (.inl (by omega)))
  · exact .inr (.inr (.inr h))

theorem noteFrame_taken {s : State} {f : NoteFrame} (survey : s.hdr.state ≠ .idle) (id : f.id ≠ 0) (low : 1 ≤ f.kind.toNat)
    (high : f.kind.toNat ≤ 3) (new : s.knownNote f.id.toNat = false) (a : Nat) :
    s.noteFrame a f = s.takeNote (s.noteFrom f) a := by
  refine if_neg ?_
  rintro (h | h | h | h)
  · exact survey h
  · exact id h
  · exact h ⟨low, high⟩
  · exact absurd h (by simp [new])

theorem knownNote_iff (s : State) (id : Nat) : s.knownNote id = true ↔
    (∃ e ∈ s.notes, e.id = id) ∨ (∃ e ∈ s.notes, e.lastCorr = some id) ∨ id ∈ s.store.noteIds := by
  unfold State.knownNote
  simp only [Bool.or_eq_true, List.any_eq_true, beq_iff_eq, List.contains_iff_mem, and_or_left, exists_or, or_assoc]

/-- The entry that a SITE note or an OBSERVATION makes, as its frame lays it out (R146, R147). -/
theorem noteFrom_entry (s : State) {f : NoteFrame} (kind : f.kind = 1 ∨ f.kind = 2) : (s.noteFrom f).entry =
    ⟨f.id.toNat, f.kind == 1, keepText f.text, s.clock.survey,
      if f.kind = 1 ∨ f.span = 0 then none else some (min (s.clock.survey + 60000 * min f.span.toNat 240) 4294967295),
      false, none, none⟩ := by
  have span : clamp 0 240 f.span.toNat = min f.span.toNat 240 := by
    unfold clamp
    split_ifs <;> omega
  have zero : f.span = 0 ↔ f.span.toNat = 0 := ⟨fun h => by rw [h]; rfl, fun h => BitVec.eq_of_toNat_eq h⟩
  unfold Note.entry State.noteFrom
  dsimp only
  rw [span]
  simp only [zero]
  rcases kind with h | h
  · rw [h]
    rfl
  · rw [h]
    by_cases hz : f.span.toNat = 0
    · simp [hz]
    · have pos : 0 < min f.span.toNat 240 := by omega
      simp [hz, pos, spanEndOf, Config.surveyMax]

/-- The fields that a note does not touch. -/
theorem takeNote_frame (s : State) (n : Note) (a : Nat) : (s.takeNote n a).line = s.line ∧ (s.takeNote n a).clock = s.clock ∧
    (s.takeNote n a).hdr = s.hdr ∧ (s.takeNote n a).rep = s.rep ∧ (s.takeNote n a).prn = s.prn ∧ (s.takeNote n a).pins = s.pins ∧
    (s.takeNote n a).store.nv = s.store.nv ∧ (s.takeNote n a).ev = s.ev ∧ (s.takeNote n a).cap = s.cap ∧
    (s.takeNote n a).har = s.har := by
  have asked (b : List Byte) : let u := ((s.noted n).storeOnePage .note (some n.id) b).1
      u.line = s.line ∧ u.clock = s.clock ∧ u.hdr = s.hdr ∧ u.rep = s.rep ∧ u.prn = s.prn ∧ u.pins = s.pins ∧
        u.store.nv = s.store.nv ∧ u.ev = s.ev ∧ u.cap = s.cap ∧ u.har = s.har :=
    ⟨storeOnePage_line .., storeOnePage_clock .., storeOnePage_hdr .., storeOnePage_rep .., storeOnePage_prn ..,
      storeOnePage_pins .., storeOnePage_nv .., storeOnePage_ev .., storeOnePage_cap .., storeOnePage_har ..⟩
  by_cases h : n.kind = 3
  · rw [takeNote_correction h]
    exact asked _
  · rw [takeNote_entry h]
    exact asked _

/-- A SITE note or an OBSERVATION that joins the table, with the number granted in its entry. -/
theorem takeNote_joins {s : State} {n : Note} {l : List NoteEntry} {k : Nat} (h : n.kind ≠ 3)
    (joins : joinNotes s.notes n.entry = (l ++ [n.entry], k)) (known : ∀ x ∈ l, x.id ≠ n.id) (a : Nat) :
    (s.takeNote n a).notes = l ++ [{ n.entry with record := (s.create ⟨.note, none, some n.id, 1⟩).2 }] ∧
      (s.takeNote n a).ctr.notesExpiredEarly = satAdd s.ctr.notesExpiredEarly k := by
  have applied : applyNote s.notes n = (l ++ [n.entry], k) := (if_neg h).trans joins
  rw [takeNote_entry h]
  refine ⟨?_, ?_⟩
  · rw [storeOnePage_notes, storeOnePage_snd]
    show setNoteRecord (applyNote s.notes n).1 n.id (s.create ⟨.note, none, some n.id, 1⟩).2 = _
    rw [applied]
    exact setNoteRecord_join known rfl _
  · show ((s.noted n).storeOnePage .note (some n.id) _).1.ctr.notesExpiredEarly = _
    rw [storeOnePage_ctr]
    show satAdd s.ctr.notesExpiredEarly (applyNote s.notes n).2 = _
    rw [applied]

/-- Settles O37: the cases of the join (`joinNotes_room` and its companions), each through `takeNote_joins`. -/
theorem notesAreTakenOrIgnored : Obligations.NotesAreTakenOrIgnored := by
  unfold Obligations.NotesAreTakenOrIgnored
  intro rx f s takes wf
  refine ⟨fun h => ?_, ?_⟩
  · rw [exec_note_takes takes wf, noteFrame_ignored]
    rcases h with h | h | h | h | h
    · exact .inl h
    · exact .inr (.inl h)
    · exact .inr (.inr (.inl h))
    · exact .inr (.inr (.inr (.inl h)))
    · exact .inr (.inr (.inr (.inr ((knownNote_iff s _).2 h))))
  · intro survey id kind new site sites joins full
    have number : f.kind.toNat = 1 ∨ f.kind.toNat = 2 := kind.imp (fun h => by rw [h]; rfl) fun h => by rw [h]; rfl
    have entry : (s.noteFrom f).kind ≠ 3 := fun h => by
      have h : f.kind.toNat = 3 := h
      omega
    let made := (s.create ⟨.note, none, some f.id.toNat, 1⟩).2
    have fresh : ∀ x ∈ s.notes, x.id ≠ f.id.toNat := fun x hx he =>
      absurd ((knownNote_iff s f.id.toNat).2 (.inl ⟨x, hx, he⟩)) (by simp [new])
    have table (l : List NoteEntry) (k : Nat) (h : joinNotes s.notes (s.noteFrom f).entry = (l ++ [(s.noteFrom f).entry], k))
        (sub : ∀ x ∈ l, x ∈ s.notes) :
        ((s.heard rx).takeNote (s.noteFrom f) rx.addressee.toNat).notes = l ++ [{ (s.noteFrom f).entry with record := made }] ∧
          ((s.heard rx).takeNote (s.noteFrom f) rx.addressee.toNat).ctr.notesExpiredEarly =
            satAdd s.ctr.notesExpiredEarly k :=
      takeNote_joins (s := s.heard rx) entry h (fun x hx => fresh x (sub x hx)) _
    have isSite : (s.noteFrom f).entry.site = site := congrArg NoteEntry.site (noteFrom_entry s kind)
    have split {before after : List NoteEntry} {gone : NoteEntry} (h : s.notes = before ++ gone :: after) :
        ∀ x ∈ before ++ after, x ∈ s.notes := fun x hx => by
      rw [h]
      exact (List.Sublist.append (.refl _) (List.sublist_cons_self ..)).mem hx
    obtain ⟨line, clock, hdr, rep, prn, pins, nv, ev, cap, -⟩ :=
      takeNote_frame (s.heard rx) (s.noteFrom f) rx.addressee.toNat
    refine ⟨_, { (s.noteFrom f).entry with record := made },
      (exec_note_takes takes wf).trans (congrArg _ (noteFrame_taken (s := s.heard rx) survey id (by omega) (by omega) new _)), ?_, fun ⟨room, four⟩ => ?_,
      fun before gone after here => ⟨fun isS four hg hb => ?_, fun ⟨fill, four⟩ hg hb => ?_, fun ⟨fill, four⟩ active hg hb => ?_⟩,
      line, clock, hdr, rep, prn, pins, nv, ev, cap⟩
    · rw [noteFrom_entry s kind]
    · exact (table s.notes 0 (joinNotes_room room (by rwa [isSite])) fun _ hx => hx).1
    · refine (table _ 0 ?_ (split here)).1
      rw [joinNotes_site (isSite.trans isS) four, here, eraseP_here hg hb]
    · refine (table _ 0 ?_ (split here)).1
      rw [joinNotes_full fill (by rwa [isSite]), here, evict_expired hg hb]
    · refine table _ 1 ?_ (split here)
      rw [joinNotes_full fill (by rwa [isSite]), here, evict_early (here ▸ active) hg hb]

/-! ## Corrections (R149) -/

theorem applyNote_correction {n : Note} (h : n.kind = 3) (t : List NoteEntry) :
    applyNote t n = (t.map fun e => if e.id == n.corrects then e.correct n else e, 0) := if_pos h

/-- What a CORRECTION does to its target. -/
theorem correct_spec (e : NoteEntry) (n : Note) :
    (e.correct n).text = n.text ∧ (e.correct n).lastCorr = some n.id ∧ (e.correct n).id = e.id ∧ (e.correct n).site = e.site ∧
      (e.correct n).received = e.received ∧ (e.correct n).record = e.record ∧ (e.expired = true → (e.correct n).expired = true) ∧
      (e.site = true ∨ e.expired = true → (e.correct n).spanEnd = e.spanEnd) ∧
      (e.site = false → e.expired = false → n.span = 0 → (e.correct n).expired = true ∧ (e.correct n).spanEnd = some n.received) ∧
      (e.site = false → e.expired = false → n.span ≠ 0 →
        (e.correct n).expired = false ∧ (e.correct n).spanEnd = some (min (n.received + 60000 * n.span) 4294967295)) := by
  unfold NoteEntry.correct
  by_cases fixed : e.site = true ∨ e.expired = true
  · rw [if_pos (by simpa using fixed)]
    refine ⟨rfl, rfl, rfl, rfl, rfl, rfl, id, fun _ => rfl, fun hs he => ?_, fun hs he => ?_⟩
    all_goals simp [hs, he] at fixed
  · rw [if_neg (by simpa using fixed)]
    obtain ⟨hs, he⟩ := not_or.1 fixed
    by_cases zero : n.span = 0
    · rw [if_pos zero]
      exact ⟨rfl, rfl, rfl, rfl, rfl, rfl, fun _ => rfl, fun h => absurd h fixed, fun _ _ _ => ⟨rfl, rfl⟩,
        fun _ _ h => absurd zero h⟩
    · rw [if_neg zero]
      exact ⟨rfl, rfl, rfl, rfl, rfl, rfl, id, fun h => absurd h fixed, fun _ _ h => absurd h zero,
        fun _ he _ => ⟨he, rfl⟩⟩

/-- Settles O38: a CORRECTION is a map over the table (`applyNote_correction`), and its record is a one-page record. -/
theorem correctionChangesItsTarget : Obligations.CorrectionChangesItsTarget := by
  unfold Obligations.CorrectionChangesItsTarget
  refine ⟨?_, fun t n i e kind here => ?_⟩
  · intro rx f s takes wf survey id kind new saturated n made
    have number : f.kind.toNat = 3 := by rw [kind]; rfl
    have note : (s.heard rx).noteFrom f = n := by
      have span : clamp 0 240 f.span.toNat = min f.span.toNat 240 := by
        unfold clamp
        split_ifs <;> omega
      unfold State.noteFrom
      rw [span, number]
      rfl
    have early : s.ctr.notesExpiredEarly ≤ 65535 := saturated _ (by simp [Counters.list])
    have noted : ((s.heard rx).noted n).create ⟨.note, none, some n.id, 1⟩ =
        ({ made.1 with notes := (applyNote s.notes n).1, line := (s.heard rx).line }, made.2) := by
      have count : satAdd s.ctr.notesExpiredEarly (applyNote s.notes n).2 = s.ctr.notesExpiredEarly := by
        rw [applyNote_correction rfl]
        exact Nat.min_eq_left early
      have same : (s.heard rx).noted n = { s.heard rx with notes := (applyNote s.notes n).1 } := by
        show ({ s.heard rx with notes := (applyNote s.notes n).1, ctr := { s.ctr with
          notesExpiredEarly := satAdd s.ctr.notesExpiredEarly (applyNote s.notes n).2 } } : State) = _
        rw [count]
        rfl
      rw [same]
      rfl
    obtain ⟨line, clock, hdr, rep, prn, pins, -, ev, cap, har⟩ := takeNote_frame (s.heard rx) n rx.addressee.toNat
    have ran : exec (.note rx f) s = .next ((s.heard rx).takeNote n rx.addressee.toNat) :=
      (exec_note_takes takes wf).trans (congrArg _ ((noteFrame_taken (s := s.heard rx) survey id (by omega) (by omega) new _).trans
        (congrArg (fun n => (s.heard rx).takeNote n rx.addressee.toNat) note)))
    have notes : ((s.heard rx).takeNote n rx.addressee.toNat).notes = (applyNote s.notes n).1 := by
      rw [takeNote_correction rfl, storeOnePage_notes]
      rfl
    refine ⟨_, ran, notes, fun other => ?_, fun r granted => ?_, fun refused => ?_, ?_, line, clock, hdr, rep, prn, pins, ev, cap,
      har⟩
    · rw [notes, applyNote_correction rfl]
      exact (List.map_congr_left fun x hx => if_neg (by simpa using other x hx)).trans (List.map_id _)
    · rw [takeNote_correction rfl, storeOnePage_granted (noted.trans (by rw [granted]))]
      rfl
    · rw [takeNote_correction rfl, storeOnePage_refused (noted.trans (by rw [refused]))]
    · rw [takeNote_correction rfl, storeOnePage_ctr, noted]
  · rw [applyNote_correction kind]
    refine ⟨_, by rw [List.getElem?_map, here]; rfl, List.length_map _, rfl, fun other => if_neg (by simpa using other), fun target => ?_⟩
    rw [if_pos (by simpa using target)]
    exact correct_spec e n

end Sys2Proof.Machine
end

section
/-!
PROOF. What a write of a page leaves to be read, and what the creation of a record takes and gives up.
-/

namespace Sys2Proof.Machine

/-! ## Pages of the data region (R125, R132) -/

theorem getElem_pageOf (bs : List Byte) {i : Nat} (h : i < (pageOf bs).length) : (pageOf bs)[i] = bs.getD i 0 := by
  rw [List.getD_eq_getElem?_getD]
  simp only [pageOf, List.getElem_take, List.getElem_append]
  split
  next hlt => rw [List.getElem?_eq_getElem hlt]; rfl
  next hge => rw [List.getElem?_eq_none (by omega), List.getElem_replicate]; rfl

theorem read_writePage (m : Memory) {p : Nat} (bs : List Byte) (a : Nat) (hp : isDataPage p) :
    (m.writePage p 1024 bs).read a = if a / 1024 = p then bs.getD (a % 1024) 0 else m.read a := by
  have whole : (pageOf bs).take 1024 = pageOf bs := List.take_of_length_le (pageOf_length bs).le
  have size : (pageOf bs).length = 1024 := pageOf_length bs
  unfold Memory.writePage
  have start : p * Config.pageBytes = p * 1024 := rfl
  rw [if_pos hp, whole, Memory.read_write]
  by_cases here : a / 1024 = p
  · rw [dif_pos (by omega), if_pos here, getElem_pageOf]
    exact congrArg (bs.getD · 0) (by omega)
  · rw [dif_neg (by omega), if_neg here]

/-- Settles O30. -/
theorem pageWriteReadsBack : Obligations.PageWriteReadsBack := by
  unfold Obligations.PageWriteReadsBack
  intro m p bs a hp
  exact read_writePage m bs a hp

/-! ## Choosing the records that give way (R128) -/

/-- The pages of a list of records. -/
def pagesOf (es : List Entry) : Nat := (es.map fun e => e.img.pages.length).sum

/-- Where the candidates reach the need, records are chosen. -/
theorem chooseReclaim_enough {need free : Nat} {ok : Bool} {cands : List Entry} (h : need ≤ free + pagesOf cands)
    (entry : ok = true ∨ cands ≠ []) : ∃ es, chooseReclaim need free ok cands = some es := by
  induction cands generalizing free ok with
  | nil =>
    refine ⟨[], ?_⟩
    have hok : ok = true := entry.resolve_right fun h => h rfl
    have hn : need ≤ free := h
    rw [chooseReclaim, if_pos (by simp [hok, hn])]
  | cons e rest ih =>
    rw [chooseReclaim]
    split
    · exact ⟨_, rfl⟩
    · obtain ⟨es, hes⟩ := ih (free := free + e.img.pages.length) (ok := true)
        (by simp only [pagesOf, List.map_cons, List.sum_cons] at h ⊢; omega) (.inl rfl)
      exact ⟨e :: es, by rw [hes]; rfl⟩

/-- The records chosen reach the need, and none of them is chosen that is not needed. -/
theorem chooseReclaim_spec {need free : Nat} {ok : Bool} {cands es : List Entry} (h : chooseReclaim need free ok cands = some es) :
    need ≤ free + pagesOf es ∧ (ok = true ∨ es ≠ []) ∧
      ∀ before last, es = before ++ [last] → free + pagesOf before < need ∨ (before = [] ∧ ok = false) := by
  induction cands generalizing free ok es with
  | nil =>
    rw [chooseReclaim] at h
    split at h
    next met =>
      cases h
      simp only [Bool.and_eq_true, decide_eq_true_eq] at met
      exact ⟨met.1, .inl met.2, fun before last h => absurd h.symm (by simp)⟩
    next => cases h
  | cons e rest ih =>
    rw [chooseReclaim] at h
    split at h
    next met =>
      cases h
      simp only [Bool.and_eq_true, decide_eq_true_eq] at met
      exact ⟨met.1, .inl met.2, fun before last h => absurd h.symm (by simp)⟩
    next unmet =>
      obtain ⟨es, hes, rfl⟩ := Option.map_eq_some_iff.1 h
      obtain ⟨enough, -, needed⟩ := ih hes
      refine ⟨by simp only [pagesOf, List.map_cons, List.sum_cons] at enough ⊢; omega, .inr (by simp), fun before last hl => ?_⟩
      rcases before with _ | ⟨b, before⟩
      · have short : ¬need ≤ free ∨ ok = false := by
          rw [← Bool.not_eq_true ok, ← not_and_or]
          simpa using unmet
        exact short.imp (fun h => by simpa [pagesOf] using h) fun h => ⟨rfl, h⟩
      · rcases needed before last (List.cons.inj hl).2 with h | h
        · refine .inl ?_
          rw [← (List.cons.inj hl).1]
          simp only [pagesOf, List.map_cons, List.sum_cons] at h ⊢
          omega
        · exact absurd h.2 (by decide)

/-! ## The candidates in their order (R128) -/

theorem Store.candidates_pairwise (st : Store) : st.candidates.Pairwise fun a b =>
    a.img.reclaimClass < b.img.reclaimClass ∨ (a.img.reclaimClass = b.img.reclaimClass ∧ a.img.record ≤ b.img.record) := by
  have rising : ([1, 2, 3, 4, 5] : List Nat).Pairwise (· < ·) := by decide
  unfold Store.candidates
  refine List.pairwise_flatMap.2 ⟨fun c _ => ?_, rising.imp fun hlt x hx y hy => .inl ?_⟩
  · refine ((sortBy_pairwise (fun e : Entry => e.img.record) _).filter _).imp_of_mem fun hx hy hle => .inr ⟨?_, hle⟩
    rw [eq_of_beq (List.mem_filter.1 hx).2, eq_of_beq (List.mem_filter.1 hy).2]
  · rw [eq_of_beq (List.mem_filter.1 hx).2, eq_of_beq (List.mem_filter.1 hy).2]
    exact hlt

/-- The candidates are entries of numbers of their own. -/
theorem Store.candidates_nodup {st : Store} (h : (st.dir.map (·.index)).Nodup) : (st.candidates.map (·.index)).Nodup := by
  have rising : ([1, 2, 3, 4, 5] : List Nat).Nodup := by decide
  unfold List.Nodup at h
  rw [List.Nodup, List.pairwise_map]
  unfold Store.candidates
  refine List.pairwise_flatMap.2 ⟨fun c _ => ?_, rising.imp fun hne x hx y hy hi => hne ?_⟩
  · refine List.Pairwise.filter _ ?_
    refine ((sortBy_perm _ _).pairwise_iff fun hne => hne.symm).2 ?_
    exact (List.pairwise_map.1 h).filter _
  · have hxy : x = y := eq_of_index h (List.mem_filter.1 (mem_sortBy.1 (List.mem_filter.1 hx).1)).1
      (List.mem_filter.1 (mem_sortBy.1 (List.mem_filter.1 hy).1)).1 hi
    rw [← eq_of_beq (List.mem_filter.1 hx).2, ← eq_of_beq (List.mem_filter.1 hy).2, hxy]

/-! ## Reclamation (R129) -/

@[simp] theorem Store.reclaim_last (st : Store) (es : List Entry) : (st.reclaim es).last = st.last := by
  unfold Store.reclaim
  induction es generalizing st with
  | nil => rfl
  | cons e es ih => exact ih (st.remove e)

@[simp] theorem Store.reclaim_bad (st : Store) (es : List Entry) : (st.reclaim es).bad = st.bad := by
  unfold Store.reclaim
  induction es generalizing st with
  | nil => rfl
  | cons e es ih => exact ih (st.remove e)

theorem Store.mem_reclaim {st : Store} {es : List Entry} {x : Entry} :
    x ∈ (st.reclaim es).dir ↔ x ∈ st.dir ∧ ∀ e ∈ es, x.index ≠ e.index := by
  unfold Store.reclaim
  induction es generalizing st with
  | nil => simp
  | cons e es ih =>
    rw [List.foldl_cons, ih, List.forall_mem_cons, ← and_assoc]
    refine and_congr_left fun _ => ?_
    show x ∈ st.dir.filter _ ↔ _
    simp

/-- What a store must keep for its pages to be counted. -/
structure Store.paged (st : Store) : Prop where
  distinct : (st.dir.map (·.index)).Nodup
  owned : st.used.Nodup
  data : ∀ p ∈ st.used, isDataPage p ∧ p ∉ st.bad

theorem Store.remove_bad (st : Store) (e : Entry) : (st.remove e).bad = st.bad := rfl

theorem Store.paged.remove {st : Store} (h : st.paged) (e : Entry) : (st.remove e).paged := by
  have sub : (st.remove e).used.Sublist st.used := List.filter_sublist.flatMap _
  exact ⟨h.distinct.sublist (List.filter_sublist.map _), h.owned.sublist sub, fun p hp => h.data p (sub.mem hp)⟩

/-- The pages of a record that leaves the directory become FREE. -/
theorem Store.paged.freePages_remove {st : Store} (h : st.paged) {e : Entry} (he : e ∈ st.dir) :
    (st.remove e).freePages.length = st.freePages.length + e.img.pages.length := by
  have own : e.img.pages.Nodup := (List.nodup_flatMap.1 h.owned).1 e he
  have apart : ∀ x ∈ st.dir, x ≠ e → ∀ p ∈ e.img.pages, p ∉ x.img.pages := fun x hx hne p hp hpx => hne (eq_of_mem_pages h.owned hx he hpx hp)
  have used : ∀ p, p ∈ (st.remove e).used ↔ p ∈ st.used ∧ p ∉ e.img.pages := fun p => by
    rw [Store.mem_used, Store.mem_used, Store.remove_dir]
    constructor
    · rintro ⟨x, hx, hp⟩
      obtain ⟨hx, hne⟩ := List.mem_filter.1 hx
      have hne : x ≠ e := fun heq => by simp [heq] at hne
      exact ⟨⟨x, hx, hp⟩, fun hpe => apart x hx hne p hpe hp⟩
    · rintro ⟨⟨x, hx, hp⟩, hpe⟩
      refine ⟨x, List.mem_filter.2 ⟨hx, ?_⟩, hp⟩
      have : x.index ≠ e.index := fun hi => hpe (eq_of_index h.distinct hx he hi ▸ hp)
      simpa using this
  have disjoint : st.freePages.Disjoint e.img.pages := fun p hf hp =>
    (Store.mem_freePages.1 hf).2.2 (Store.mem_used.2 ⟨e, he, hp⟩)
  have perm : (st.remove e).freePages.Perm (st.freePages ++ e.img.pages) := by
    refine (List.perm_ext_iff_of_nodup (Store.freePages_nodup _) (st.freePages_nodup.append own disjoint)).2 fun p => ?_
    rw [List.mem_append, Store.mem_freePages, Store.mem_freePages, used]
    rw [Store.remove_bad]
    constructor
    · rintro ⟨hd, hb, hu⟩
      by_cases hp : p ∈ e.img.pages
      · exact .inr hp
      · exact .inl ⟨hd, hb, fun h => hu ⟨h, hp⟩⟩
    · rintro (⟨hd, hb, hu⟩ | hp)
      · exact ⟨hd, hb, fun hh => hu hh.1⟩
      · obtain ⟨hd, hb⟩ := h.data p (Store.mem_used.2 ⟨e, he, hp⟩)
        exact ⟨hd, hb, fun hh => hh.2 hp⟩
  rw [perm.length_eq, List.length_append]

theorem Store.paged.freePages_reclaim {st : Store} (h : st.paged) {es : List Entry} (hes : ∀ e ∈ es, e ∈ st.dir)
    (distinct : (es.map (·.index)).Nodup) : (st.reclaim es).freePages.length = st.freePages.length + pagesOf es := by
  unfold Store.reclaim
  induction es generalizing st with
  | nil => exact (Nat.add_zero _).symm
  | cons e es ih =>
    obtain ⟨he, hes⟩ := List.forall_mem_cons.1 hes
    obtain ⟨first, rest⟩ := List.nodup_cons.1 distinct
    have kept : ∀ x ∈ es, x ∈ (st.remove e).dir := fun x hx => List.mem_filter.2 ⟨hes x hx, by
      have : x.index ≠ e.index := fun hi => first (List.mem_map.2 ⟨x, hx, hi⟩)
      simpa using this⟩
    rw [List.foldl_cons, ih (h.remove e) kept rest, h.freePages_remove he]
    simp only [pagesOf, List.map_cons, List.sum_cons]
    omega

/-! ## Creation (R124, R126) -/

/-- The store once a record has been issued in the empty entry `i`. -/
def Store.issued (st : Store) (now : Nat) (q : CreateRequest) (i : Nat) : Store :=
  { { st with last := st.last + 1 }.writeCtl with
    dir := insertBy (·.index) (newEntry i (st.last + 1) now q (st.freePages.take q.pages)) st.dir }.writeEntry i

theorem Store.issue_eq {st : Store} {q : CreateRequest} {i : Nat} (hi : st.emptyEntry = some i) (hp : q.pages ≤ st.freePages.length)
    (now : Nat) : st.issue now q = some (st.issued now q i, st.last + 1) := by
  unfold Store.issue
  rw [hi]
  exact if_neg (by omega)

theorem Store.issue_some {st st' : Store} {q : CreateRequest} {now r : Nat} (h : st.issue now q = some (st', r)) :
    ∃ i, st.emptyEntry = some i ∧ q.pages ≤ st.freePages.length ∧ st' = st.issued now q i ∧ r = st.last + 1 := by
  rcases hi : st.emptyEntry with _ | i
  · unfold Store.issue at h
    rw [hi] at h
    cases h
  · by_cases hp : q.pages ≤ st.freePages.length
    · rw [Store.issue_eq hi hp] at h
      obtain ⟨rfl, rfl⟩ := Prod.mk.inj (Option.some.inj h)
      exact ⟨i, rfl, hp, rfl, rfl⟩
    · unfold Store.issue at h
      rw [hi] at h
      exact absurd (h.symm.trans (if_pos (by omega))) (by simp)

theorem Store.issued_last (st : Store) (now : Nat) (q : CreateRequest) (i : Nat) : (st.issued now q i).last = st.last + 1 := rfl

theorem Store.issued_bad (st : Store) (now : Nat) (q : CreateRequest) (i : Nat) : (st.issued now q i).bad = st.bad := rfl

theorem Store.issued_nv (st : Store) (now : Nat) (q : CreateRequest) (i : Nat) : (st.issued now q i).nv = st.nv := rfl

theorem Store.mem_issued {st : Store} {now : Nat} {q : CreateRequest} {i : Nat} {x : Entry} : x ∈ (st.issued now q i).dir ↔
    x = newEntry i (st.last + 1) now q (st.freePages.take q.pages) ∨ x ∈ st.dir := mem_insertBy

theorem Store.emptyEntry_isSome {st : Store} : st.emptyEntry.isSome = true ↔ ∃ i, i < 1024 ∧ ∀ e ∈ st.dir, e.index ≠ i := by
  unfold Store.emptyEntry
  rw [List.find?_isSome]
  simp only [List.mem_range, Bool.not_eq_true', List.any_eq_false, beq_iff_eq]
  exact Iff.rfl

/-- A creation for which room is made, and the request that finds it made, issues the next number. -/
theorem Store.create_granted {st : Store} {q : CreateRequest} {quota : Nat} {es : List Entry} (room : st.makeRoom quota q = some es)
    (entry : ∃ i, i < 1024 ∧ ∀ e ∈ (st.reclaim es).dir, e.index ≠ i) (pages : q.pages ≤ (st.reclaim es).freePages.length) (now : Nat) :
    ∃ st', st.create now quota q = (st', es, some (st.last + 1)) := by
  obtain ⟨i, hi⟩ := Option.isSome_iff_exists.1 (Store.emptyEntry_isSome.2 entry)
  unfold Store.create
  rw [room]
  dsimp only
  rw [Store.issue_eq hi pages now, st.reclaim_last]
  exact ⟨_, rfl⟩

theorem Store.create_some {st st' : Store} {q : CreateRequest} {quota now r : Nat} {es : List Entry}
    (h : st.create now quota q = (st', es, some r)) :
    st.makeRoom quota q = some es ∧ (st.reclaim es).issue now q = some (st', r) := by
  unfold Store.create at h
  rcases room : st.makeRoom quota q with _ | es'
  · rw [room] at h
    cases h
  · rw [room] at h
    dsimp only at h
    rcases issue : (st.reclaim es').issue now q with _ | ⟨u, n⟩
    · rw [issue] at h
      cases h
    · rw [issue] at h
      cases h
      exact ⟨rfl, issue⟩

/-- The records reclaimed are those that made room. -/
theorem Store.create_reclaims {st st' : Store} {q : CreateRequest} {quota now : Nat} {n : Option Nat} {es : List Entry}
    (h : st.create now quota q = (st', es, n)) : es = [] ∨ st.makeRoom quota q = some es := by
  unfold Store.create at h
  rcases room : st.makeRoom quota q with _ | es'
  · rw [room] at h
    cases h
    exact .inl rfl
  · rw [room] at h
    dsimp only at h
    rcases issue : (st.reclaim es').issue now q with _ | ⟨u, n⟩ <;>
    · rw [issue] at h
      cases h
      exact .inr rfl

/-- The pages that the INTERVAL records hold. -/
def Store.intervalPages (st : Store) : Nat := pagesOf (st.dir.filter fun e => e.img.tag == .interval)

/-- The INTERVAL records that may give way, by record number. -/
def Store.intervalCandidates (st : Store) : List Entry :=
  sortBy (fun e => e.img.record) ((st.dir.filter fun e => e.img.tag == .interval).filter Entry.reclaimable)

theorem Store.mem_intervalCandidates {st : Store} {e : Entry} :
    e ∈ st.intervalCandidates ↔ e ∈ st.dir ∧ e.img.tag = .interval ∧ e.img.sealed = true ∧ e.pins = 0 := by
  unfold Store.intervalCandidates
  simp only [mem_sortBy, List.mem_filter, Entry.reclaimable, Bool.and_eq_true, beq_iff_eq, and_assoc]

theorem Store.makeRoom_within {st : Store} {q : CreateRequest} {quota : Nat} (number : st.last < 4294967295)
    (h : q.tag ≠ .interval ∨ st.intervalPages + 1 ≤ quota) : st.makeRoom quota q =
      chooseReclaim q.pages st.freePages.length st.emptyEntry.isSome st.candidates := by
  unfold Store.makeRoom
  refine (if_neg (by show ¬4294967295 ≤ _; omega)).trans (if_neg ?_)
  rintro ⟨tag, beyond⟩
  have beyond : quota < st.intervalPages + 1 := beyond
  rcases h with h | h
  · exact h tag
  · omega

theorem Store.makeRoom_beyond {st : Store} {q : CreateRequest} {quota : Nat} (number : st.last < 4294967295) (tag : q.tag = .interval)
    (beyond : quota < st.intervalPages + 1) : st.makeRoom quota q = st.intervalCandidates.head?.map fun e => [e] := by
  unfold Store.makeRoom
  exact (if_neg (by show ¬4294967295 ≤ _; omega)).trans (if_pos ⟨tag, beyond⟩)

/-- The oldest of the INTERVAL records that may give way. -/
theorem Store.head?_intervalCandidates {st : Store} {e : Entry} (he : e ∈ st.intervalCandidates)
    (oldest : ∀ x ∈ st.intervalCandidates, x ≠ e → e.img.record < x.img.record) : st.intervalCandidates.head? = some e := by
  have rising : st.intervalCandidates.Pairwise fun a b => a.img.record ≤ b.img.record := sortBy_pairwise _ _
  rcases hl : st.intervalCandidates with _ | ⟨x, rest⟩
  · rw [hl] at he
    cases he
  · rw [hl] at he oldest rising
    by_cases hx : x = e
    · rw [hx]
      rfl
    · have tail : e ∈ rest := (List.mem_cons.1 he).resolve_left fun h => hx h.symm
      have h1 := (List.pairwise_cons.1 rising).1 e tail
      have h2 := oldest x (List.mem_cons_self ..) hx
      omega

theorem Store.makeRoom_other {st : Store} {q : CreateRequest} {quota : Nat} {es : List Entry} (tag : q.tag ≠ .interval)
    (h : st.makeRoom quota q = some es) :
    chooseReclaim q.pages st.freePages.length st.emptyEntry.isSome st.candidates = some es := by
  unfold Store.makeRoom at h
  dsimp only at h
  split at h
  · cases h
  · rwa [if_neg fun hh => tag hh.1] at h

/-- Settles O31: `chooseReclaim_spec` for the records that give way, `freePages_reclaim` for the room that they make. -/
theorem creationGrantsFreePages : Obligations.CreationGrantsFreePages := by
  unfold Obligations.CreationGrantsFreePages
  refine ⟨?_, fun st => ?_, fun st st' es n now quota q tag made => ?_, fun st st' es r now quota q distinct made => ?_⟩
  · intro st now quota q distinct small owned data number pages held
    have paged : st.paged := ⟨distinct, owned, data⟩
    refine ⟨fun within enough room => ?_, fun tag beyond => ⟨fun e he int sealed free pages oldest => ?_, fun none => ?_⟩⟩
    · have choice := Store.makeRoom_within (q := q) number within
      obtain ⟨es, hes⟩ := chooseReclaim_enough enough (room.imp_left Store.emptyEntry_isSome.2)
      obtain ⟨reached, entry, -⟩ := chooseReclaim_spec hes
      have sub := (chooseReclaim_prefix hes).sublist
      have mem : ∀ e ∈ es, e ∈ st.dir := fun e he => (Store.mem_candidates.1 (sub.mem he)).1
      have free := paged.freePages_reclaim mem ((Store.candidates_nodup distinct).sublist (sub.map _))
      obtain ⟨st', h⟩ := Store.create_granted (choice.trans hes) (by
        rcases entry with h | h
        · obtain ⟨i, hi, unused⟩ := Store.emptyEntry_isSome.1 h
          exact ⟨i, hi, fun x hx => unused x (Store.mem_reclaim.1 hx).1⟩
        · obtain ⟨e, he⟩ := List.exists_mem_of_ne_nil _ h
          exact ⟨e.index, small e (mem e he), fun x hx => (Store.mem_reclaim.1 hx).2 e he⟩) (by omega) now
      exact ⟨st', es, h⟩
    · have head := Store.head?_intervalCandidates (Store.mem_intervalCandidates.2 ⟨he, int, sealed, free⟩) fun x hx hne => by
        obtain ⟨hx, xi, xs, xp⟩ := Store.mem_intervalCandidates.1 hx
        exact oldest x hx hne xi xs xp
      have free := paged.freePages_reclaim (es := [e]) (by simpa using he) (by simp)
      refine Store.create_granted ((Store.makeRoom_beyond number tag beyond).trans (by rw [head]; rfl))
        ⟨e.index, small e he, fun x hx => (Store.mem_reclaim.1 hx).2 e (List.mem_singleton.2 rfl)⟩ (by omega) now
    · have empty : st.intervalCandidates = [] := List.eq_nil_iff_forall_not_mem.2 fun x hx => by
        obtain ⟨hx, xi, xs, xp⟩ := Store.mem_intervalCandidates.1 hx
        rcases none x hx xi with h | h
        · simp [h] at xs
        · omega
      unfold Store.create
      rw [Store.makeRoom_beyond number tag beyond, empty]
      rfl
  · exact ⟨fun e => Store.mem_candidates, st.candidates_pairwise⟩
  · rcases Store.create_reclaims made with rfl | room
    · exact ⟨List.nil_prefix, fun before last h => absurd h.symm (by simp)⟩
    · have choice := Store.makeRoom_other tag room
      refine ⟨chooseReclaim_prefix choice, fun before last h => ?_⟩
      refine ((chooseReclaim_spec choice).2.2 before last h).imp id fun first => ⟨first.1, fun i hi => ?_⟩
      by_contra unused
      have empty := Store.emptyEntry_isSome.2 ⟨i, hi, fun e he hx => unused ⟨e, he, hx⟩⟩
      rw [first.2] at empty
      cases empty
  · obtain ⟨room, issue⟩ := Store.create_some made
    obtain ⟨i, -, pages, rfl, rfl⟩ := Store.issue_some issue
    have chosen : ∀ e ∈ es, e ∈ st.dir ∧ e.img.sealed = true ∧ e.pins = 0 := fun e he =>
      Store.mem_candidates.1 (Store.makeRoom_candidates room e he)
    rw [st.reclaim_last, Store.issued_bad, Store.issued_nv, st.reclaim_bad, st.reclaim_nv]
    refine ⟨rfl, Store.issued_last .. |>.trans (by rw [st.reclaim_last]), ?_, fun e he kept => ?_, fun e he => ?_, rfl, rfl⟩
    · refine ⟨_, Store.mem_issued.2 (.inl rfl), by rw [st.reclaim_last]; rfl, rfl, rfl, rfl, rfl, rfl, rfl, rfl, rfl, rfl, ?_, rfl⟩
      exact List.length_take_of_le pages
    · refine Store.mem_issued.2 (.inr (Store.mem_reclaim.2 ⟨he, fun x hx hi => ?_⟩))
      obtain ⟨hx, sealed, free⟩ := chosen x hx
      rw [eq_of_index distinct he hx hi, sealed, free] at kept
      simp at kept
    · obtain ⟨hd, sealed, free⟩ := chosen e he
      refine ⟨hd, sealed, free, fun h => ?_⟩
      rcases Store.mem_issued.1 h with h | h
      · rw [h] at sealed
        cases sealed
      · exact (Store.mem_reclaim.1 h).2 e he rfl

end Sys2Proof.Machine
end

section
/-!
PROOF. What the end of a write of the system region, of page 0 and of a data page does.
-/

namespace Sys2Proof.Machine

/-! ## The write at the head of the queue -/

section
variable {st : Store} {s : State} {w : StoreWrite} {rest : List StoreWrite} {which : StoreWrite → Bool}

theorem Store.reach_front (h : st.writes = w :: rest) (hw : which w = true) : st.reach which = some (w, { st with writes := rest }) := by
  unfold Store.reach
  rw [h, List.find?_cons_of_pos hw, List.eraseP_cons_of_pos hw]
  rfl

/-- No system write stands before a write at the head. -/
theorem Store.awaits_front (h : st.writes = w :: rest) (hw : which w = true) (hs : w.isSys = false) : st.awaits which = false := by
  unfold Store.awaits
  rw [h, List.find?_cons_of_pos (by rw [hs, hw]; rfl), Option.map_some, hs, Option.getD_some, Bool.and_false]

theorem reach_front (h : s.store.writes = w :: rest) (hw : which w = true) (hs : w.isSys = false) : s.reach which = s := by
  have stays : ∀ fuel, s.drain which fuel = s := fun fuel => by
    cases fuel with
    | zero => rfl
    | succ n => exact if_neg (by rw [Store.awaits_front h hw hs]; decide)
  exact stays _

theorem sysDone_front {item : SysItem} {retried : Bool} (h : s.store.writes = .sys item retried :: rest) (ok : Bool) :
    s.sysDone ok = if ok then { s with store := { s.store with writes := rest, nv := s.store.written item } }.sysEnded item true
      else if retried then { s with store := { s.store with writes := rest }.tearSys item }.sysEnded item false
      else { s with store := { s.store with writes := .sys item true :: rest } } := by
  unfold State.sysDone
  rw [Store.reach_front h rfl]
  rfl

theorem headerDone_front {hdr : Header} {retried : Bool} (h : s.store.writes = .header hdr retried :: rest) (ok : Bool) :
    s.headerDone ok = { s with store :=
      if ok then { s.store with writes := rest, nv := s.store.nv.putHeader hdr }
      else if retried then { s.store with writes := rest }.tearHeader hdr
      else { s.store with writes := .header hdr true :: rest } } := by
  unfold State.headerDone
  rw [reach_front h rfl rfl]
  refine congrArg (fun st => ({ s with store := st } : State)) ?_
  unfold Store.headerDone
  rw [Store.reach_front h rfl]

end

theorem Entry.unshortened {e : Entry} (h : e.keep = none) : ({ e with img := e.written, keep := none } : Entry) = e := by
  cases e
  cases h
  rfl

/-- Where no page is to be retired and no page list to be shortened, the end of a system write changes nothing else. -/
theorem sysEnded_quiet {s : State} (settled : s.store.settledOk) (whole : ∀ e ∈ s.store.dir, e.keep = none) (item : SysItem)
    (v : Bool) : s.sysEnded item v = s := by
  cases item with
  | entry i r =>
    have same : (s.store.dir.map fun e => if e.index == i && some e.img.record == r then { e with img := e.written, keep := none } else e)
        = s.store.dir := (List.map_congr_left fun e he => by
      rw [Entry.unshortened (whole e he), ite_self]
      rfl).trans (List.map_id _)
    show ({ s with store := { s.store with dir := s.store.dir.map _ } } : State) = s
    rw [same]
  | bad second =>
    unfold State.sysEnded
    dsimp only
    rw [settleRetiring_none settled, ite_self]
  | ctl _ => rfl

/-! ## What a write leaves in the system region (R12, R120) -/

theorem Store.written_read (st : Store) (item : SysItem) : (st.written item).read item.address = st.content item := by
  unfold Store.written
  rcases h : st.content item with _ | c
  · exact Region.read_erase ..
  · exact (Region.read_put ..).trans (by rw [SysContent.cell_agrees]; rfl)

theorem Store.written_other (st : Store) (item : SysItem) {a : Nat} (h : a ≠ item.address) :
    (st.written item).read a = st.nv.read a := by
  unfold Store.written
  rcases st.content item with _ | c
  · exact Region.read_erase_of_ne h
  · exact Region.read_put_of_ne h _

theorem Store.spoilt_read (st : Store) (item : SysItem) : (st.spoilt item).read item.address = none := by
  unfold Store.spoilt
  rcases st.content item with _ | c
  · exact Region.read_erase ..
  · exact (Region.read_put ..).trans (by rw [SysContent.torn_agrees]; rfl)

theorem Store.spoilt_other (st : Store) (item : SysItem) {a : Nat} (h : a ≠ item.address) :
    (st.spoilt item).read a = st.nv.read a := by
  unfold Store.spoilt
  rcases st.content item with _ | c
  · exact Region.read_erase_of_ne h
  · exact Region.read_put_of_ne h _

/-- A write given up leaves the old contents, the new ones, or a check that fails, and nothing else changes. -/
theorem Store.tearSys_spec (st : Store) (item : SysItem) : ∃ nv, st.tearSys item = { st with nv := nv, draws := st.draws + 1 } ∧
    (nv = st.nv ∨ nv = st.written item ∨ nv.read item.address = none) ∧ nv.mem = st.nv.mem ∧
    ∀ a, a ≠ item.address → nv.read a = st.nv.read a := by
  refine ⟨_, rfl, ?_⟩
  split
  · exact ⟨.inl rfl, rfl, fun _ _ => rfl⟩
  · split
    · exact ⟨.inr (.inr (st.spoilt_read item)), st.spoilt_mem item, fun a => st.spoilt_other item⟩
    · exact ⟨.inr (.inl rfl), st.written_mem item, fun a => st.written_other item⟩

theorem header_of_read {nv : Region} {h : Header} (hr : nv.read (headerPage * Config.pageBytes) = some (.header h)) :
    nv.header = some h := by
  unfold Region.header
  rw [hr]

theorem header_of_read_none {nv : Region} (hr : nv.read (headerPage * Config.pageBytes) = none) : nv.header = none := by
  unfold Region.header
  rw [hr]

theorem Region.putHeader_header (nv : Region) (h : Header) : (nv.putHeader h).header = some h :=
  header_of_read ((Region.read_put ..).trans (by rw [SysContent.cell_agrees]; rfl))

theorem Region.putHeader_other (nv : Region) (h : Header) {a : Nat} (ha : a ≠ 0) : (nv.putHeader h).read a = nv.read a :=
  Region.read_put_of_ne (by simpa [headerPage] using ha) _

theorem Store.tearHeader_spec (st : Store) (h : Header) : ∃ nv, st.tearHeader h = { st with nv := nv, draws := st.draws + 1 } ∧
    (nv = st.nv ∨ nv = st.nv.putHeader h ∨ nv.header = none) ∧ nv.mem = st.nv.mem ∧ ∀ a, a ≠ 0 → nv.read a = st.nv.read a := by
  refine ⟨_, rfl, ?_⟩
  split
  · exact ⟨.inl rfl, rfl, fun _ _ => rfl⟩
  · split
    · refine ⟨.inr (.inr (header_of_read_none ((Region.read_put ..).trans (by rw [SysContent.torn_agrees]; rfl)))), rfl, fun a ha => ?_⟩
      exact Region.read_put_of_ne (by simpa [headerPage] using ha) _
    · exact ⟨.inr (.inl rfl), rfl, fun a => st.nv.putHeader_other h⟩

/-- Nine entries of 113 bytes to a page, in pages 5 to 118 (R119). -/
theorem entry_address (i : Nat) (r : Option Nat) : (SysItem.entry i r).address = (5 + i / 9) * 1024 + i % 9 * 113 := rfl

/-! ## Shortened page lists (R136) -/

theorem find_entry {st : Store} {e : Entry} (distinct : (st.dir.map (·.index)).Nodup) (he : e ∈ st.dir) :
    (st.dir.find? fun x => x.index == e.index && some x.img.record == some e.img.record) = some e := by
  rcases hf : st.dir.find? fun x => x.index == e.index && some x.img.record == some e.img.record with _ | x
  · exact absurd (List.find?_eq_none.1 hf e he) (by simp)
  · have hx := List.find?_some hf
    simp only [Bool.and_eq_true, beq_iff_eq] at hx
    rw [hf, eq_of_index distinct (List.mem_of_find?_eq_some hf) he hx.1]

theorem exec_systemWriteComplete {s t : State} {ok : Bool} (run : s.mode = .running) (done : s.sysDone ok = t)
    (sealing : t.sup.sealing = none) (due : t.sup.restartDue = none) : exec (.systemWriteComplete ok) s = .next t := by
  show execSystemWriteComplete ok s = _
  unfold execSystemWriteComplete
  rw [if_neg (by rw [run]; decide), done, afterWrite_idle sealing due]

theorem exec_headerWriteComplete {s t : State} {ok : Bool} (run : s.mode = .running) (done : s.headerDone ok = t)
    (sealing : t.sup.sealing = none) (due : t.sup.restartDue = none) : exec (.headerWriteComplete ok) s = .next t := by
  show execHeaderWriteComplete ok s = _
  unfold execHeaderWriteComplete
  rw [if_neg (by rw [run]; decide), done, afterWrite_idle sealing due]

theorem exec_pageWriteComplete {s t : State} {ok : Bool} (run : s.mode = .running) (done : s.pageDone ok = t)
    (sealing : t.sup.sealing = none) (due : t.sup.restartDue = none) : exec (.pageWriteComplete ok) s = .next t := by
  show execPageWriteComplete ok s = _
  unfold execPageWriteComplete
  rw [if_neg (by rw [run]; decide), done, afterWrite_idle sealing due]

/-- Settles O35: a write at the head of the queue (`sysDone_front`, `headerDone_front`), and what it leaves in the region. -/
theorem systemAndHeaderWrites : Obligations.SystemAndHeaderWrites := by
  unfold Obligations.SystemAndHeaderWrites
  refine ⟨fun s rest run due sealing => ⟨fun item here => ⟨fun settled whole => ?_, ?_⟩, fun item here settled whole => ?_,
      fun i r k e retried here distinct he hi hr hk => ?_, fun h here => ⟨?_, ?_⟩⟩,
    fun s h rest run due sealing here => ?_, fun st item => ?_, fun nv h => ?_, fun i j a b hi hj => ?_⟩
  · refine exec_systemWriteComplete run ((sysDone_front here true).trans (if_pos rfl) |>.trans ?_) sealing due
    refine sysEnded_quiet ?_ ?_ ..
    · exact settled
    · exact whole
  · exact exec_systemWriteComplete run ((sysDone_front here false).trans rfl) sealing due
  · obtain ⟨nv, torn, contents, mem, other⟩ := Store.tearSys_spec { s.store with writes := rest } item
    refine ⟨nv, exec_systemWriteComplete run ((sysDone_front here false).trans (if_neg (by decide)) |>.trans (if_pos rfl) |>.trans ?_)
      sealing due, contents, mem, other⟩
    rw [torn]
    refine sysEnded_quiet ?_ ?_ ..
    · exact settled
    · exact whole
  · subst hi hr
    have content : s.store.content (.entry e.index (some e.img.record)) = some (.entry { e.img with pages := e.img.pages.take k }) := by
      show (s.store.dir.find? _).map _ = _
      rw [find_entry distinct he]
      simp only [Option.map_some, Entry.written, hk]
    have written : s.store.written (.entry e.index (some e.img.record)) =
        s.store.nv.put (SysItem.entry e.index (some e.img.record)).address
          (SysContent.entry { e.img with pages := e.img.pages.take k }).cell := by
      unfold Store.written
      rw [content]
    refine ⟨_, exec_systemWriteComplete run ((sysDone_front here true).trans (if_pos rfl)) sealing due, ?_, ?_, ?_, written, rfl, rfl⟩
    · refine List.mem_map.2 ⟨e, he, (if_pos (by simp)).trans ?_⟩
      simp only [Entry.written, hk]
    · intro x hx hne
      exact List.mem_map.2 ⟨x, hx, if_neg (by simp [hne])⟩
    · exact List.length_map _
  · exact exec_headerWriteComplete run ((headerDone_front here true).trans rfl) sealing due
  · exact exec_headerWriteComplete run ((headerDone_front here false).trans rfl) sealing due
  · obtain ⟨nv, torn, contents, mem, other⟩ := Store.tearHeader_spec { s.store with writes := rest } h
    refine ⟨nv, exec_headerWriteComplete run ((headerDone_front here false).trans ?_) sealing due, contents, mem, other⟩
    exact congrArg (fun st => ({ s with store := st } : State)) torn
  · exact ⟨st.written_read item, st.written_mem item, fun a => st.written_other item⟩
  · exact ⟨nv.putHeader_header h, rfl, fun a => nv.putHeader_other h⟩
  · rw [entry_address, entry_address]
    omega

/-! ## A page write that matches (R95, R132, R135) -/

theorem Store.update_update (st : Store) (r : Nat) {f g : Entry → Entry} (hf : ∀ e, (f e).img.record = e.img.record) :
    (st.update r f).update r g = st.update r (g ∘ f) := by
  unfold Store.update
  rw [List.map_map]
  refine congrArg (fun dir => ({ st with dir := dir } : Store)) (List.map_congr_left fun e _ => ?_)
  by_cases h : e.img.record = r
  · simp [h, hf]
  · simp [h]

/-- A change that leaves the one entry of the record as it is changes nothing. -/
theorem Store.update_self {st : Store} {r : Nat} {f : Entry → Entry} (h : ∀ x ∈ st.dir, x.img.record = r → f x = x) :
    st.update r f = st := by
  unfold Store.update
  have same : (st.dir.map fun e => if e.img.record == r then f e else e) = st.dir := by
    refine (List.map_congr_left fun e he => ?_).trans (List.map_id _)
    by_cases hr : e.img.record = r
    · rw [if_pos (by simpa using hr)]
      exact h e he hr
    · exact if_neg (by simpa using hr)
  rw [same]

theorem Store.update_indexes (st : Store) (r : Nat) {f : Entry → Entry} (hf : ∀ e, (f e).index = e.index) :
    (st.update r f).dir.map (·.index) = st.dir.map (·.index) := by
  unfold Store.update
  rw [List.map_map]
  refine List.map_congr_left fun e _ => ?_
  simp only [Function.comp_apply]
  split <;> simp [hf]

/-- The write of the entry of a live record joins the end of the queue. -/
theorem Store.writeEntryOf_eq {st : Store} {r : Nat} {e : Entry} (he : st.entryOf r = some e) (distinct : (st.dir.map (·.index)).Nodup) :
    st.writeEntryOf r = { st with writes := st.writes ++ [.sys (.entry e.index (some r)) false] } := by
  obtain ⟨hd, hr⟩ := Store.entryOf_some he
  have own : (st.dir.find? fun x => x.index == e.index).map (·.img.record) = some r := by
    rcases hf : st.dir.find? fun x => x.index == e.index with _ | x
    · exact absurd (List.find?_eq_none.1 hf e hd) (by simp)
    · rw [hf, eq_of_index distinct (List.mem_of_find?_eq_some hf) hd (by simpa using List.find?_some hf), Option.map_some, hr]
  unfold Store.writeEntryOf
  rw [he]
  show st.writeEntry e.index = _
  unfold Store.writeEntry
  rw [own]
  rfl

/-- A position verified counts in pages verified when it is the next one (R132). -/
def Entry.verifiedAt (pos : Nat) (e : Entry) : Entry :=
  { e with img := { e.img with verified := if e.img.verified = pos then pos + 1 else e.img.verified } }

/-- An entry that is SEALED, all its positions verified (R135). -/
def Entry.sealed (e : Entry) : Entry := { e with img := { e.img with sealed := true, verified := e.img.pages.length } }

section
variable {st : Store} {r pos : Nat} {e : Entry}

/-- The write that a verified position hands over for its entry. -/
def Entry.ownWrite (e : Entry) (r pos : Nat) : List StoreWrite :=
  if e.img.verified = pos ∧ 1 < e.img.pages.length then [.sys (.entry e.index (some r)) false] else []

theorem Store.verify_eq (he : st.entryOf r = some e) (distinct : (st.dir.map (·.index)).Nodup)
    (alone : ∀ x ∈ st.dir, x.img.record = r → x = e) :
    st.verify r pos = { st.update r (Entry.verifiedAt pos) with writes := st.writes ++ e.ownWrite r pos } := by
  unfold Store.verify Entry.ownWrite
  rw [he]
  dsimp only
  by_cases next : e.img.verified = pos
  · have step : (st.update r fun x => { x with img := { x.img with verified := pos + 1 } }) =
        st.update r (Entry.verifiedAt pos) := by
      refine congrArg (fun dir => ({ st with dir := dir } : Store)) (List.map_congr_left fun x hx => ?_)
      by_cases hr : x.img.record = r
      · rw [if_pos (by simpa using hr), if_pos (by simpa using hr), alone x hx hr, Entry.verifiedAt, if_pos next]
      · rw [if_neg (by simpa using hr), if_neg (by simpa using hr)]
    rw [if_pos next, step]
    by_cases many : 1 < e.img.pages.length
    · rw [if_pos many, if_pos ⟨next, many⟩, Store.writeEntryOf_eq (e := e.verifiedAt pos)
        ((st.entryOf_update r (f := Entry.verifiedAt pos) fun _ => rfl).trans (by rw [he]; rfl))
        (by rwa [st.update_indexes r (f := Entry.verifiedAt pos) fun _ => rfl])]
      rfl
    · rw [if_neg many, if_neg fun h => many h.2, List.append_nil]
      rfl
  · have same : st.update r (Entry.verifiedAt pos) = st := Store.update_self fun x hx hr => by
      rw [alone x hx hr, Entry.verifiedAt, if_neg next]
    rw [if_neg next, if_neg fun h => next h.1, same, List.append_nil]

/-- What follows a page write that matches, in the entry of its record. -/
def Entry.followed (pos len : Nat) (bs : List Byte) : PageNext → Entry → Entry
  | .more, e => if pos = 0 then { e with opened := bs } else e
  | .close _, e => if pos + 1 < len then { e with keep := some (pos + 1) } else e
  | .seal, e => e.sealed

/-- The queue after a page write that matches, whose write has left it. -/
def matchedWrites (e : Entry) (r pos : Nat) (rest : List StoreWrite) : PageNext → List StoreWrite
  | .more => rest ++ e.ownWrite r pos
  | .close h => (if pos + 1 < e.img.pages.length then [.sys (.entry e.index (some r)) false, .page r 0 h .seal]
      else [.page r 0 h .seal]) ++ (rest ++ e.ownWrite r pos)
  | .seal => rest ++ e.ownWrite r pos ++ [.sys (.entry e.index (some r)) false]

theorem Entry.verifiedAt_record (pos : Nat) (e : Entry) : (e.verifiedAt pos).img.record = e.img.record := rfl

theorem Entry.verifiedAt_index (pos : Nat) (e : Entry) : (e.verifiedAt pos).index = e.index := rfl

theorem Entry.followed_record (pos len : Nat) (bs : List Byte) (next : PageNext) (e : Entry) :
    (e.followed pos len bs next).img.record = e.img.record := by
  cases next with
  | more =>
    rw [Entry.followed]
    split <;> rfl
  | close h =>
    rw [Entry.followed]
    split <;> rfl
  | _ => rfl

/-- What follows comes about in a store whose entry of the record is `e`. -/
theorem Store.followed_eq {bs : List Byte} {next : PageNext} (he : st.entryOf r = some e) (distinct : (st.dir.map (·.index)).Nodup) :
    (match next with
      | .more => if pos = 0 then st.update r fun e => { e with opened := bs } else st
      | .close header =>
        let out := st.closing r (pos + 1) header
        { out.1 with writes := out.2 ++ out.1.writes }
      | .seal => st.seal r) =
    { st.update r (Entry.followed pos e.img.pages.length bs next) with writes := match next with
      | .more => st.writes
      | .close h => (if pos + 1 < e.img.pages.length then [.sys (.entry e.index (some r)) false, .page r 0 h .seal]
          else [.page r 0 h .seal]) ++ st.writes
      | .seal => st.writes ++ [.sys (.entry e.index (some r)) false] } := by
  cases next with
  | more =>
    by_cases first : pos = 0
    · have change : Entry.followed pos e.img.pages.length bs .more = fun e => { e with opened := bs } := by
        funext x
        exact if_pos first
      rw [change]
      exact if_pos first
    · have same : st.update r (Entry.followed pos e.img.pages.length bs .more) = st := Store.update_self fun x _ _ => if_neg first
      rw [same]
      exact if_neg first
  | close h =>
    dsimp only
    unfold Store.closing
    rw [he]
    dsimp only
    by_cases longer : pos + 1 < e.img.pages.length
    · have change : Entry.followed pos e.img.pages.length bs (.close h) = fun e => { e with keep := some (pos + 1) } := by
        funext x
        exact if_pos longer
      rw [change, if_pos longer, if_pos longer]
      rfl
    · have same : st.update r (Entry.followed pos e.img.pages.length bs (.close h)) = st :=
        Store.update_self fun x _ _ => if_neg longer
      rw [same, if_neg longer, if_neg longer]
  | _ =>
    have entry : (st.update r Entry.sealed).entryOf r = some e.sealed :=
      (st.entryOf_update r (f := Entry.sealed) fun _ => rfl).trans (by rw [he]; rfl)
    exact Store.writeEntryOf_eq (st := st.update r Entry.sealed) (e := e.sealed) entry
      (by rwa [st.update_indexes r (f := Entry.sealed) fun _ => rfl])

theorem Store.pageMatch_eq {p : Nat} (he : st.entryOf r = some e) (distinct : (st.dir.map (·.index)).Nodup)
    (alone : ∀ x ∈ st.dir, x.img.record = r → x = e) (hp : e.img.pages[pos]? = some p) (bs : List Byte) (next : PageNext) :
    st.pageMatch r pos bs next = { st.update r (Entry.followed pos e.img.pages.length bs next ∘ Entry.verifiedAt pos) with
      nv := { st.nv with mem := st.nv.mem.writePage p Config.pageBytes bs }
      retiring := none
      writes := matchedWrites e r pos st.writes next } := by
  let base : Store := { st with nv := { st.nv with mem := st.nv.mem.writePage p Config.pageBytes bs }, retiring := none }
  have stored : ({ st.storePage r pos bs with retiring := none } : Store) = base := by
    unfold Store.storePage
    rw [he, Option.bind_some, hp]
  let u : Store := { base.update r (Entry.verifiedAt pos) with writes := st.writes ++ e.ownWrite r pos }
  have verified : base.verify r pos = u := Store.verify_eq (st := base) (pos := pos) he distinct alone
  have entry : u.entryOf r = some (e.verifiedAt pos) :=
    (base.entryOf_update r (Entry.verifiedAt_record pos)).trans (by rw [show base.entryOf r = some e from he]; rfl)
  have follow := Store.followed_eq (pos := pos) (bs := bs) (next := next) entry
    ((base.update_indexes r (Entry.verifiedAt_index pos)).symm ▸ distinct)
  unfold Store.pageMatch
  rw [stored, verified]
  refine Eq.trans ?_ (follow.trans ?_)
  · cases next <;> rfl
  · have twice : u.update r (Entry.followed pos e.img.pages.length bs next) =
        { base.update r (Entry.followed pos e.img.pages.length bs next ∘ Entry.verifiedAt pos) with
          writes := st.writes ++ e.ownWrite r pos } :=
      congrArg (fun v : Store => { v with writes := st.writes ++ e.ownWrite r pos })
        (base.update_update r (Entry.verifiedAt_record pos))
    rw [show (e.verifiedAt pos).img.pages.length = e.img.pages.length from rfl, twice]
    cases next <;> rfl

end

theorem pageDone_front {s : State} {r pos : Nat} {bs : List Byte} {next : PageNext} {rest : List StoreWrite}
    (here : s.store.writes = .page r pos bs next :: rest) (settled : s.store.settledOk) (ok : Bool) :
    s.pageDone ok = { s with store := { s.store with writes := rest } }.pageEnded r pos bs next ok := by
  unfold State.pageDone
  rw [if_pos (by rw [here]; rfl), reach_front here rfl rfl, settleRetiring_none settled]
  dsimp only
  rw [Store.reach_front here rfl]

theorem afterPage_idle {s : State} (opening : s.sup.opening = none) (wait : s.sup.parkWait = false) : s.afterPage = s := by
  unfold State.afterPage
  rw [opening, wait]
  rfl

theorem pageEnded_match {s : State} {r : Nat} {e : Entry} (he : s.store.entryOf r = some e) (filling : e.img.sealed = false) (pos : Nat)
    (bs : List Byte) (next : PageNext) : s.pageEnded r pos bs next true = (s.pageVerified r pos bs next).afterPage := by
  unfold State.pageEnded
  rw [he]
  dsimp only
  rw [filling]
  rfl

/-- A match of the first write waiting, of a position of a FILLING record. -/
theorem exec_pageWriteComplete_match {s : State} {r pos p : Nat} {bs : List Byte} {next : PageNext} {rest : List StoreWrite}
    {e : Entry} (run : s.mode = .running) (opening : s.sup.opening = none) (wait : s.sup.parkWait = false)
    (due : s.sup.restartDue = none) (sealing : s.sup.sealing = none) (here : s.store.writes = .page r pos bs next :: rest)
    (he : s.store.entryOf r = some e) (distinct : (s.store.dir.map (·.index)).Nodup)
    (alone : ∀ x ∈ s.store.dir, x.img.record = r → x = e) (filling : e.img.sealed = false) (hp : e.img.pages[pos]? = some p)
    (settled : s.store.settledOk) :
    exec (.pageWriteComplete true) s = .next { s with
      store := { s.store.update r (Entry.followed pos e.img.pages.length bs next ∘ Entry.verifiedAt pos) with
        nv := { s.store.nv with mem := s.store.nv.mem.writePage p Config.pageBytes bs }
        retiring := none
        writes := matchedWrites e r pos rest next }
      cap := if next = .seal then s.cap.freeRecord r else s.cap } := by
  have matched := Store.pageMatch_eq (st := { s.store with writes := rest }) he distinct alone hp bs next
  refine exec_pageWriteComplete run ((pageDone_front here settled true).trans (pageEnded_match (by exact he) filling ..) |>.trans
    ((afterPage_idle (by exact opening) (by exact wait)).trans ?_)) (by exact sealing) (by exact due)
  unfold State.pageVerified
  rw [matched]
  rfl

/-- Settles O33: the end of the write (`exec_pageWriteComplete_match`), read off in the entry and in the queue. -/
theorem pageWriteVerified : Obligations.PageWriteVerified := by
  unfold Obligations.PageWriteVerified
  intro s r pos p bs next rest e run opening wait due sealing here he distinct alone filling whole hp data settled entry own verified
  obtain ⟨hd, hr⟩ := Store.entryOf_some he
  have same : ∀ x, ((Entry.followed pos e.img.pages.length bs next ∘ Entry.verifiedAt pos) x).img.record = x.img.record :=
    fun x => Entry.followed_record ..
  refine ⟨_, Entry.followed pos e.img.pages.length bs next (e.verifiedAt pos),
    exec_pageWriteComplete_match run opening wait due sealing here he distinct alone filling hp settled,
    (s.store.entryOf_update r same).trans (by rw [he]; rfl), ?_⟩
  have memory (a : Nat) := read_writePage s.store.nv.mem bs a data
  have others : ∀ x ∈ s.store.dir, x.img.record ≠ r →
      x ∈ (s.store.update r (Entry.followed pos e.img.pages.length bs next ∘ Entry.verifiedAt pos)).dir := fun x hx hne =>
    List.mem_map.2 ⟨x, hx, if_neg (by simpa using hne)⟩
  have stays {n : PageNext} (h : n ≠ .seal) : (e.verifiedAt pos).img =
      { e.img with verified := if n = .seal then e.img.pages.length else verified, sealed := decide (n = .seal) } := by
    rw [if_neg h, decide_eq_false h, ← filling]
    rfl
  cases next with
  | more =>
    have img := stays (n := .more) (by decide)
    by_cases first : pos = 0
    · have change : Entry.followed pos e.img.pages.length bs .more (e.verifiedAt pos) = { e.verifiedAt pos with opened := bs } :=
        if_pos first
      rw [change]
      exact ⟨img, rfl, rfl, (if_pos ⟨rfl, first⟩).symm, fun _ => ⟨rfl, whole⟩, nofun, nofun, rfl, memory, rfl, others, rfl, rfl,
        rfl, rfl, rfl, rfl, rfl⟩
    · have change : Entry.followed pos e.img.pages.length bs .more (e.verifiedAt pos) = e.verifiedAt pos := if_neg first
      rw [change]
      exact ⟨img, rfl, rfl, (if_neg fun h => first h.2).symm, fun _ => ⟨rfl, whole⟩, nofun, nofun, rfl, memory, rfl, others, rfl,
        rfl, rfl, rfl, rfl, rfl, rfl⟩
  | close h =>
    have img := stays (n := .close h) nofun
    by_cases longer : pos + 1 < e.img.pages.length
    · have change : Entry.followed pos e.img.pages.length bs (.close h) (e.verifiedAt pos) =
          { e.verifiedAt pos with keep := some (pos + 1) } := if_pos longer
      have queue : matchedWrites e r pos rest (.close h) = entry :: .page r 0 h .seal :: (rest ++ own) :=
        congrArg (· ++ (rest ++ own)) (if_pos longer)
      rw [change, queue]
      refine ⟨img, rfl, rfl, rfl, nofun, ?_, nofun, rfl, memory, rfl, others, rfl, rfl, rfl, rfl, rfl, rfl, rfl⟩
      rintro _ ⟨rfl⟩
      exact ⟨fun _ => ⟨rfl, rfl⟩, fun h => absurd h (by omega)⟩
    · have change : Entry.followed pos e.img.pages.length bs (.close h) (e.verifiedAt pos) = e.verifiedAt pos := if_neg longer
      have queue : matchedWrites e r pos rest (.close h) = .page r 0 h .seal :: (rest ++ own) :=
        congrArg (· ++ (rest ++ own)) (if_neg longer)
      rw [change, queue]
      refine ⟨img, rfl, rfl, rfl, nofun, ?_, nofun, rfl, memory, rfl, others, rfl, rfl, rfl, rfl, rfl, rfl, rfl⟩
      rintro _ ⟨rfl⟩
      exact ⟨fun h => absurd h longer, fun _ => ⟨rfl, whole⟩⟩
  | _ =>
    exact ⟨rfl, rfl, rfl, rfl, nofun, nofun, fun _ => ⟨rfl, whole⟩, rfl, memory, rfl, others, rfl, rfl, rfl, rfl, rfl, rfl, rfl⟩

end Sys2Proof.Machine
end

section
/-!
PROOF. The sealing with which a close or parking begins, said once for both: the open event, the captures with their closing
writes, and the interval.
-/

namespace Sys2Proof.Machine

/-! ## The open event (R68, R71) -/

theorem beBytes_one (n : Nat) : beBytes 1 n = [BitVec.ofNat 8 n] := by
  rw [beBytes, beBytes, Nat.pow_zero, Nat.div_one]

theorem sagPage_outcome (s : State) (e : OpenEvent) (code stop : Nat) : (s.sagPage e code stop)[5]? = some (BitVec.ofNat 8 code) := by
  have two : ∃ x y, beBytes 2 e.seq = [x, y] := ⟨_, _, rfl⟩
  obtain ⟨x, y, two⟩ := two
  unfold State.sagPage OpenEvent.bytes
  simp only [beBytes_one, two, List.append_assoc, List.cons_append, List.nil_append]
  rfl

theorem sealEvent_sealed (s : State) (code : Nat) : s.eventSealed (s.sealEvent code s.clock.survey) code := by
  refine ⟨fun none => by simp only [State.sealEvent, none], fun e he => ⟨sagPage_outcome .., ?_⟩⟩
  exact sealEvent_spec he code s.clock.survey

/-! ## The closing writes of one capture (R95, R136) -/

/-- The store shortens the page list of a capture's record at once: no page of it is partly filled, and it owns positions beyond
those written. -/
def Store.shortens (st : Store) (sl : Slot) : Bool :=
  sl.buf.isEmpty && ((st.entryOf sl.record).any fun e => decide (sl.nextPos < e.img.pages.length))

/-- What the closing writes of a capture change in an entry. -/
def Store.shortened (st : Store) (sl : Slot) (e : Entry) : Entry :=
  if st.shortens sl ∧ e.img.record = sl.record then { e with keep := some sl.nextPos } else e

/-- The closing writes of a capture with its final header page (R95). -/
def Store.closingList (st : Store) (sl : Slot) (header : List Byte) : List StoreWrite :=
  if sl.buf ≠ [] then [.page sl.record sl.nextPos sl.buf (.close header)]
  else match st.entryOf sl.record with
    | some e => if sl.nextPos < e.img.pages.length then [.sys (.entry e.index (some sl.record)) false, .page sl.record 0 header .seal]
      else [.page sl.record 0 header .seal]
    | none => [.page sl.record 0 header .seal]

theorem closingWrites_eq (sl : Slot) (channels : Nat) (st : Store) : sl.closingWrites channels st =
    { st with dir := st.dir.map (st.shortened sl), writes := st.writes ++ st.closingList sl (sl.headerBytes channels) } := by
  have same (h : st.shortens sl = false) : st.dir.map (st.shortened sl) = st.dir :=
    (List.map_congr_left fun e _ => if_neg (by simp [h])).trans (List.map_id _)
  unfold Slot.closingWrites
  by_cases empty : sl.buf = []
  · rw [if_pos (by simpa using empty)]
    unfold Store.closing Store.closingList
    rw [if_neg (by simpa using empty)]
    rcases he : st.entryOf sl.record with _ | e
    · rw [same (by simp [Store.shortens, he])]
    · dsimp only
      by_cases longer : sl.nextPos < e.img.pages.length
      · have change : st.shortens sl = true := by simp [Store.shortens, he, empty, longer]
        rw [if_pos longer, if_pos longer]
        refine congrArg (fun dir => ({ st with dir := dir, writes := _ } : Store)) (List.map_congr_left fun x _ => ?_)
        unfold Store.shortened
        by_cases hr : x.img.record = sl.record
        · rw [if_pos (by simpa using hr), if_pos ⟨change, hr⟩]
        · rw [if_neg (by simpa using hr), if_neg fun h => hr h.2]
      · rw [if_neg longer, if_neg longer, same (by simp [Store.shortens, he, longer])]
  · rw [if_neg (by simpa using empty), same (by simp [Store.shortens, empty])]
    unfold Store.closingList
    rw [if_pos empty]
    rfl

/-- Two stores with the same entries, but for what their working copies await. -/
def Store.alike (st u : Store) : Prop := u.dir.map (fun e => (e.index, e.img)) = st.dir.map fun e => (e.index, e.img)

section
variable {st u : Store}

theorem Store.alike.entryOf (h : st.alike u) (r : Nat) :
    (u.entryOf r).map (fun e => (e.index, e.img)) = (st.entryOf r).map fun e => (e.index, e.img) := by
  have find (w : Store) : (w.entryOf r).map (fun e => (e.index, e.img)) =
      (w.dir.map fun e => (e.index, e.img)).find? fun x => x.2.record == r := by
    rw [List.find?_map]
    rfl
  rw [find, find, h]

theorem Store.alike.shortens (h : st.alike u) (sl : Slot) : u.shortens sl = st.shortens sl := by
  have image (w : Store) : (w.entryOf sl.record).any (fun e => decide (sl.nextPos < e.img.pages.length)) =
      ((w.entryOf sl.record).map fun e => (e.index, e.img)).any fun x => decide (sl.nextPos < x.2.pages.length) := by
    rcases w.entryOf sl.record with _ | e <;> rfl
  unfold Store.shortens
  rw [image u, h.entryOf, ← image st]

theorem Store.alike.shortened (h : st.alike u) (sl : Slot) : u.shortened sl = st.shortened sl := by
  funext e
  unfold Store.shortened
  rw [h.shortens]

theorem Store.alike.closingList (h : st.alike u) (sl : Slot) (header : List Byte) :
    u.closingList sl header = st.closingList sl header := by
  have image (w : Store) : w.closingList sl header = if sl.buf ≠ [] then [.page sl.record sl.nextPos sl.buf (.close header)]
      else ((w.entryOf sl.record).map fun e => (e.index, e.img)).elim [.page sl.record 0 header .seal] fun x =>
        if sl.nextPos < x.2.pages.length then [.sys (.entry x.1 (some sl.record)) false, .page sl.record 0 header .seal]
        else [.page sl.record 0 header .seal] := by
    unfold Store.closingList
    rcases w.entryOf sl.record with _ | e <;> rfl
  rw [image u, h.entryOf, ← image st]

theorem Store.shortened_img (st : Store) (sl : Slot) (e : Entry) : (st.shortened sl e).img = e.img := by
  unfold Store.shortened
  split <;> rfl

theorem Store.shortened_index (st : Store) (sl : Slot) (e : Entry) : (st.shortened sl e).index = e.index := by
  unfold Store.shortened
  split <;> rfl

end

/-! ## The captures that a close or parking seals (R94, R95) -/

/-- A capture as a close or parking seals it: one at its 2048th post instant COMPLETE. -/
def State.shut (s : State) (cause : CapOutcome) (sl : Slot) : Slot := sl.sealed (if sl.running then cause else .complete) s.provisional

/-- What the seals of several captures make of an entry. -/
def Store.shortenedBy (st : Store) (l : List Slot) (e : Entry) : Entry := l.foldl (fun e sl => st.shortened sl e) e

/-- What they make of a slot. -/
def State.shutBy (s : State) (cause : CapOutcome) (l : List Slot) (x : Slot) : Slot :=
  l.foldl (fun x sl => if x.num == sl.num then { s.shut cause sl with buf := [] } else x) x

theorem Store.shortenedBy_img (st : Store) (l : List Slot) (e : Entry) :
    (st.shortenedBy l e).img = e.img ∧ (st.shortenedBy l e).index = e.index := by
  unfold Store.shortenedBy
  induction l generalizing e with
  | nil => exact ⟨rfl, rfl⟩
  | cons sl l ih =>
    obtain ⟨img, index⟩ := ih (st.shortened sl e)
    exact ⟨img.trans (st.shortened_img ..), index.trans (st.shortened_index ..)⟩

theorem Store.alike_shortened {st u : Store} (h : st.alike u) (sl : Slot) (ws : List StoreWrite) :
    st.alike { u with dir := u.dir.map (st.shortened sl), writes := ws } := by
  refine Eq.trans ?_ h
  rw [List.map_map]
  exact List.map_congr_left fun e _ => by rw [Function.comp_apply, st.shortened_img, st.shortened_index]

theorem foldl_sealSlot {cause : CapOutcome} (l : List Slot) (s u : State) (mode : u.provisional = s.provisional)
    (chans : u.channels = s.channels) (alike : s.store.alike u.store) :
    l.foldl (fun s sl => s.sealSlot sl (if sl.running then cause else .complete)) u = { u with
      cap := { u.cap with slots := u.cap.slots.map (s.shutBy cause l) }
      store := { u.store with
        dir := u.store.dir.map (s.store.shortenedBy l)
        writes := u.store.writes ++ l.flatMap fun sl => s.store.closingList sl ((s.shut cause sl).headerBytes s.channels) } } := by
  induction l generalizing u with
  | nil =>
    have slots : u.cap.slots.map (s.shutBy cause []) = u.cap.slots := List.map_id _
    have dir : u.store.dir.map (s.store.shortenedBy []) = u.store.dir := List.map_id _
    rw [slots, dir, List.flatMap_nil, List.append_nil]
    rfl
  | cons sl l ih =>
    have one : u.sealSlot sl (if sl.running then cause else .complete) = { u with
        cap := { u.cap with slots := u.cap.slots.map fun x => if x.num == sl.num then { s.shut cause sl with buf := [] } else x }
        store := { u.store with
          dir := u.store.dir.map (s.store.shortened sl)
          writes := u.store.writes ++ s.store.closingList sl ((s.shut cause sl).headerBytes s.channels) } } := by
      have closing : (s.shut cause sl).closingWrites s.channels u.store = { u.store with
          dir := u.store.dir.map (s.store.shortened sl)
          writes := u.store.writes ++ s.store.closingList sl ((s.shut cause sl).headerBytes s.channels) } := by
        rw [closingWrites_eq, alike.shortened, alike.closingList]
        rfl
      unfold State.sealSlot
      rw [mode, chans]
      exact congrArg (fun st => ({ u with cap := _, store := st } : State)) closing
    rw [List.foldl_cons, one]
    refine Eq.trans (ih _ (by exact mode) (by exact chans) (by exact Store.alike_shortened alike ..)) ?_
    dsimp only
    rw [List.map_map, List.map_map, List.append_assoc, List.flatMap_cons]
    rfl

theorem sealCaptures_eq (s : State) (cause : CapOutcome) : s.sealCaptures cause = { s with
    cap := { s.cap with slots := s.cap.slots.map (s.shutBy cause (s.cap.slots.filter fun sl => !sl.closing)) }
    store := { s.store with
      dir := s.store.dir.map (s.store.shortenedBy (s.cap.slots.filter fun sl => !sl.closing))
      writes := s.store.writes ++ (s.cap.slots.filter fun sl => !sl.closing).flatMap fun sl =>
        s.store.closingList sl ((s.shut cause sl).headerBytes s.channels) } } :=
  foldl_sealSlot _ s s rfl rfl rfl

theorem header_outcome (sl : Slot) (channels : Nat) : (sl.headerBytes channels)[6]? = some (BitVec.ofNat 8 sl.outcome.code) := by
  have two : ∃ x y, beBytes 2 sl.seq = [x, y] := ⟨_, _, rfl⟩
  obtain ⟨x, y, two⟩ := two
  unfold Slot.headerBytes
  simp only [beBytes_one, two, List.append_assoc, List.cons_append, List.nil_append]
  rfl

section
variable {s : State} {cause : CapOutcome} {l : List Slot}

theorem shutBy_other {x : Slot} (h : ∀ sl ∈ l, sl.num ≠ x.num) : s.shutBy cause l x = x := by
  unfold State.shutBy
  induction l with
  | nil => rfl
  | cons sl l ih =>
    obtain ⟨here, rest⟩ := List.forall_mem_cons.1 h
    rw [List.foldl_cons, if_neg (by simpa using here.symm), ih rest]

theorem shutBy_self {x : Slot} (distinct : (l.map (·.num)).Nodup) (hx : x ∈ l) :
    s.shutBy cause l x = { s.shut cause x with buf := [] } := by
  induction l with
  | nil => cases hx
  | cons sl l ih =>
    obtain ⟨apart, distinct⟩ := List.nodup_cons.1 distinct
    rcases List.mem_cons.1 hx with rfl | hx
    · have rest : ∀ y ∈ l, y.num ≠ ({ s.shut cause x with buf := [] } : Slot).num := fun y hy h =>
        apart (List.mem_map.2 ⟨y, hy, h⟩)
      have step : s.shutBy cause (x :: l) x = s.shutBy cause l { s.shut cause x with buf := [] } :=
        congrArg (s.shutBy cause l) (if_pos (beq_self_eq_true _))
      rw [step, shutBy_other rest]
    · have other : x.num ≠ sl.num := fun h => apart (List.mem_map.2 ⟨x, hx, h⟩)
      have step : s.shutBy cause (sl :: l) x = s.shutBy cause l x :=
        congrArg (s.shutBy cause l) (if_neg (by simpa using other))
      rw [step, ih distinct hx]

/-- A slot is CLOSING once a capture of its number has been sealed. -/
theorem shutBy_closing {x : Slot} (h : x.closing = true ∨ ∃ sl ∈ l, sl.num = x.num) : (s.shutBy cause l x).closing = true := by
  induction l generalizing x with
  | nil => exact h.resolve_right fun ⟨_, hm, _⟩ => nomatch hm
  | cons sl l ih =>
    by_cases same : x.num = sl.num
    · have step : s.shutBy cause (sl :: l) x = s.shutBy cause l { s.shut cause sl with buf := [] } :=
        congrArg (s.shutBy cause l) (if_pos (by simpa using same))
      rw [step]
      exact ih (.inl rfl)
    · have step : s.shutBy cause (sl :: l) x = s.shutBy cause l x :=
        congrArg (s.shutBy cause l) (if_neg (by simpa using same))
      rw [step]
      refine ih (h.imp id fun ⟨y, hy, hn⟩ => ?_)
      rcases List.mem_cons.1 hy with rfl | hy
      · exact absurd hn.symm same
      · exact ⟨y, hy, hn⟩

end

theorem Store.shortens_iff (st : Store) (sl : Slot) : st.shortens sl = true ↔
    sl.buf = [] ∧ ∃ e, st.entryOf sl.record = some e ∧ sl.nextPos < e.img.pages.length := by
  unfold Store.shortens
  rw [Bool.and_eq_true, List.isEmpty_iff, Option.any_eq_true]
  simp only [decide_eq_true_eq]

theorem Store.shortenedBy_other {st : Store} {l : List Slot} {e : Entry}
    (h : ∀ sl ∈ l, st.shortens sl = true → sl.record ≠ e.img.record) : st.shortenedBy l e = e := by
  unfold Store.shortenedBy
  induction l with
  | nil => rfl
  | cons sl l ih =>
    obtain ⟨here, rest⟩ := List.forall_mem_cons.1 h
    have stays : st.shortened sl e = e := if_neg fun hh => here hh.1 hh.2.symm
    rw [List.foldl_cons, stays, ih rest]

theorem Store.shortenedBy_self {st : Store} {l : List Slot} {e : Entry} {sl : Slot} (distinct : (l.map (·.record)).Nodup)
    (hsl : sl ∈ l) (short : st.shortens sl = true) (he : sl.record = e.img.record) :
    st.shortenedBy l e = { e with keep := some sl.nextPos } := by
  induction l with
  | nil => cases hsl
  | cons x l ih =>
    obtain ⟨apart, distinct⟩ := List.nodup_cons.1 distinct
    rcases List.mem_cons.1 hsl with rfl | hsl
    · have step : st.shortenedBy (sl :: l) e = st.shortenedBy l { e with keep := some sl.nextPos } :=
        congrArg (st.shortenedBy l) (if_pos ⟨short, he.symm⟩)
      rw [step]
      exact Store.shortenedBy_other fun y hy _ hr => apart (List.mem_map.2 ⟨y, hy, hr.trans he.symm⟩)
    · have step : st.shortenedBy (x :: l) e = st.shortenedBy l e :=
        congrArg (st.shortenedBy l) (if_neg fun hh => apart (List.mem_map.2 ⟨sl, hsl, he.trans hh.2⟩))
      rw [step, ih distinct hsl]

/-- The captures that run or are at their end are sealed, with their closing writes handed over. -/
theorem sealCaptures_sealed (a : State) (cause : CapOutcome) : a.capturesSealed (a.sealCaptures cause) cause := by
  rw [sealCaptures_eq]
  refine ⟨rfl, rfl, fun distinct => ?_, fun sl => ?_, rfl, ?_, fun e he apart => ?_, fun records slots e he sl hsl short hr => ?_⟩
  · refine List.map_congr_left fun x hx => ?_
    have same {y : Slot} (hy : y ∈ a.cap.slots) (h : y.num = x.num) : y = x := List.inj_on_of_nodup_map distinct hy hx h
    by_cases shut : x.closing = true
    · rw [if_pos shut]
      refine shutBy_other fun y hy hn => ?_
      obtain ⟨hy, runs⟩ := List.mem_filter.1 hy
      rw [same hy hn, shut] at runs
      cases runs
    · rw [if_neg shut]
      exact shutBy_self (distinct.sublist (List.filter_sublist.map _)) (List.mem_filter.2 ⟨hx, by simpa using shut⟩)
  · exact (header_outcome ..).trans rfl
  · rw [List.map_map]
    exact List.map_congr_left fun e _ => (a.store.shortenedBy_img _ e).1
  · refine List.mem_map.2 ⟨e, he, Store.shortenedBy_other fun sl hsl short => ?_⟩
    exact apart sl hsl ((a.store.shortens_iff sl).1 short)
  · exact List.mem_map.2 ⟨e, he, Store.shortenedBy_self slots hsl ((a.store.shortens_iff sl).2 short) hr⟩

/-! ## The interval (R114 to R116) -/

/-- The page of the running interval at its seal. -/
def State.intervalPage (s : State) (x : Accum) (supply : Bool) : List Byte :=
  x.bytes s.hdr.params.un (decide (x.counted < s.hdr.params.k)) supply (x.startUnsure || x.stopUnsure || s.provisional)
    (s.attach x.start x.stop)

theorem intervalPage_flags (s : State) (x : Accum) (supply : Bool) : ∃ flags : BitVec 8,
    (s.intervalPage x supply)[1]? = some flags ∧ flags.getLsbD 0 = decide (x.counted < s.hdr.params.k) ∧ flags.getLsbD 2 = supply := by
  have bits : ∀ a b c d : Bool, (BitVec.ofNat 8 (flagByte [a, b, c, d])).getLsbD 0 = a ∧
      (BitVec.ofNat 8 (flagByte [a, b, c, d])).getLsbD 2 = c := by decide
  refine ⟨_, ?_, bits _ (x.m == 0) _ (x.startUnsure || x.stopUnsure || s.provisional)⟩
  unfold State.intervalPage Accum.bytes
  simp only [beBytes_one, List.append_assoc, List.cons_append, List.nil_append]
  rfl

/-- The analyser without blocks and without a running interval. -/
def State.noInterval (s : State) : Harmonic := { s.har with current := none, settling := none, blockCounter := 0, accum := none }

theorem stopHarmonic_none {s : State} (h : s.har.accum = none) (supply : Bool) :
    s.stopHarmonic supply = { s with har := s.noInterval } := by
  unfold State.stopHarmonic State.sealInterval
  dsimp only
  rw [h]
  dsimp only
  unfold State.noInterval
  rw [← h]

/-- The seal of the running interval: its record is asked for, and its page is handed over, or it is lost and counted. -/
theorem sealInterval_some {s : State} {x : Accum} (h : s.har.accum = some x) (supply : Bool) :
    let made := s.create ⟨.interval, none, none, 1⟩
    let counted := { made.1.ctr with intervalsSealed := satAdd s.ctr.intervalsSealed 1 }
    (∀ n, made.2 = some n → s.sealInterval supply = { made.1 with
      har := { s.har with accum := none }
      ctr := counted
      store := { made.1.store with writes := made.1.store.writes ++ [.page n 0 (s.intervalPage x supply) .seal] } }) ∧
    (made.2 = none → s.sealInterval supply = { made.1 with
      har := { s.har with accum := none }
      ctr := { counted with intervalsLost := satAdd s.ctr.intervalsLost 1 } }) := by
  intro made counted
  let asking : State := { s with
    har := { s.har with accum := none }
    ctr := { s.ctr with intervalsSealed := satAdd s.ctr.intervalsSealed 1 } }
  have same (r : Option Nat) (h : made.2 = r) : asking.create ⟨.interval, none, none, 1⟩ =
      ({ made.1 with har := { s.har with accum := none }, ctr := counted }, r) := Prod.ext rfl h
  have seals : s.sealInterval supply = match (asking.storeOnePage .interval none (s.intervalPage x supply)).2 with
      | some _ => (asking.storeOnePage .interval none (s.intervalPage x supply)).1
      | none => { (asking.storeOnePage .interval none (s.intervalPage x supply)).1 with
          ctr := { (asking.storeOnePage .interval none (s.intervalPage x supply)).1.ctr with
            intervalsLost := satAdd (asking.storeOnePage .interval none (s.intervalPage x supply)).1.ctr.intervalsLost 1 } } := by
    unfold State.sealInterval
    rw [h]
    rfl
  refine ⟨fun n hn => ?_, fun hn => ?_⟩
  · rw [seals, storeOnePage_granted (same _ hn)]
  · rw [seals, storeOnePage_refused (same _ hn)]
    rfl

theorem stopHarmonic_some {s : State} {x : Accum} (h : s.har.accum = some x) (supply : Bool) :
    let made := s.create ⟨.interval, none, none, 1⟩
    let counted := { made.1.ctr with intervalsSealed := satAdd s.ctr.intervalsSealed 1 }
    (∀ n, made.2 = some n → s.stopHarmonic supply = { made.1 with
      har := s.noInterval
      ctr := counted
      store := { made.1.store with writes := made.1.store.writes ++ [.page n 0 (s.intervalPage x supply) .seal] } }) ∧
    (made.2 = none → s.stopHarmonic supply = { made.1 with
      har := s.noInterval
      ctr := { counted with intervalsLost := satAdd s.ctr.intervalsLost 1 } }) :=
  sealInterval_some (s := { s with har := { s.har with current := none, settling := none, blockCounter := 0 } }) h supply

theorem stopHarmonic_sealed (s : State) (supply : Bool) : s.intervalSealed (s.stopHarmonic supply) supply :=
  ⟨fun none => stopHarmonic_none none supply, fun x some => ⟨intervalPage_flags s x supply, stopHarmonic_some some supply⟩⟩

end Sys2Proof.Machine
end

section
/-!
PROOF. The closing operation, and the timers of survey control.
-/

namespace Sys2Proof.Machine

/-! ## The closing operation (R6, R95) -/

theorem inSurvey_closed {s : State} (h : s.hdr.state = .closed) : s.inSurvey = false := by
  simp [State.inSurvey, h]

/-- The header with which a survey is closed. -/
def State.closedHeader (s : State) : Header := { s.hdr with state := .closed, checkpoint := s.clock.survey }

theorem finishClose_eq (s : State) (asked : List Nat) : s.finishClose asked =
    asked.foldl (fun x sender => x.answer 2 0 0 false sender) { s.stopHarmonic false with
      tb := { s.tb with state := .stopped }
      hdr := s.closedHeader
      ckpt := none
      store := { (s.stopHarmonic false).store with
        writes := (s.stopHarmonic false).store.writes ++ [.header s.closedHeader false] } } := by
  unfold State.finishClose
  refine congrArg (fun u => asked.foldl (fun (s : State) sender => s.answer 2 0 0 false sender) u) ?_
  unfold State.writeHeader
  rw [inSurvey_closed (by exact rfl)]
  unfold State.closedHeader
  rw [← stopHarmonic_tb s false, ← stopHarmonic_hdr s false, ← stopHarmonic_clock s false]
  rfl

theorem finishClose_finished (b : State) (asked : List Nat) :
    ({ b with sup := { b.sup with sealing := none } }.finishClose asked).closeFinished b asked :=
  ⟨_, stopHarmonic_sealed .., finishClose_eq ..⟩

/-- A close that begins in a state `s` (R6 stages 1 and 2), and ends in the same command where the closing writes of its captures
have ended. -/
theorem closeSurvey_closes {s : State} (h : s.sup.sealing = none) (asked : List Nat) : (s.closeSurvey asked).closesFrom s asked := by
  let b := (s.sealEvent 2 s.clock.survey).sealCaptures .cut
  have sup : b.sup.sealing = none := by
    show ((s.sealEvent 2 s.clock.survey).sealCaptures .cut).sup.sealing = none
    rw [sealCaptures_eq]
    exact (congrArg _ (sealEvent_sup ..)).trans h
  have begun : s.closeSurvey asked = State.endSealing { b with
      sup := { b.sup with sealing := some ⟨s.cap.runningRecords, .close asked⟩ } } := closeSurvey_begins h asked
  refine ⟨b, ⟨_, sealEvent_sealed s 2, sealCaptures_sealed ..⟩, fun ended => ?_, fun waits => ?_⟩
  · rw [begun, endSealing_ends rfl (by exact ended)]
    exact finishClose_finished b asked
  · rw [begun, endSealing_waits rfl (by exact waits)]
    rfl

/-- The answers to those who asked for a close change the line alone. -/
theorem foldl_answer_eq (asked : List Nat) (u : State) : asked.foldl (fun x sender => x.answer 2 0 0 false sender) u =
    { u with line := (asked.foldl (fun x sender => x.answer 2 0 0 false sender) u).line } := by
  induction asked generalizing u with
  | nil => rfl
  | cons a asked ih => exact ih (u.answer 2 0 0 false a)

theorem foldl_answer_line (asked : List Nat) {u v : State} (line : u.line = v.line) (clock : u.clock = v.clock) :
    (asked.foldl (fun x sender => x.answer 2 0 0 false sender) u).line =
      (asked.foldl (fun x sender => x.answer 2 0 0 false sender) v).line := by
  induction asked generalizing u v with
  | nil => exact line
  | cons a asked ih =>
    refine ih ?_ clock
    show u.line.handOver u.clock.now _ a = v.line.handOver v.clock.now _ a
    rw [line, clock]

/-- The state in which the sealing stage of a close or parking has handed over its closing writes. -/
def State.sealedState (s : State) (code : Nat) (cause : CapOutcome) : State := (s.sealEvent code s.clock.survey).sealCaptures cause

theorem sealedState_frame (s : State) (code : Nat) (cause : CapOutcome) : let b := s.sealedState code cause
    b.rep = s.rep ∧ b.prn = s.prn ∧ b.notes = s.notes ∧ b.clock = s.clock ∧ b.lev = s.lev ∧ b.mode = s.mode ∧ b.pins = s.pins ∧
      b.straps = s.straps ∧ b.hdr = s.hdr ∧ b.tb = s.tb ∧ b.line = s.line ∧ b.sup = s.sup ∧ b.har = s.har ∧ b.ckpt = s.ckpt := by
  unfold State.sealedState
  rw [sealCaptures_eq]
  exact ⟨sealEvent_rep .., sealEvent_prn .., sealEvent_notes .., sealEvent_clock .., sealEvent_lev .., sealEvent_mode ..,
    sealEvent_pins .., sealEvent_straps .., sealEvent_hdr .., sealEvent_tb .., sealEvent_line .., sealEvent_sup .., sealEvent_har ..,
    sealEvent_ckpt ..⟩

theorem sealEvent_event (s : State) (code stop : Nat) : (s.sealEvent code stop).ev.event = none := by
  rcases he : s.ev.event with _ | e
  · simp only [State.sealEvent, he]
  · obtain ⟨granted, refused⟩ := sealEvent_spec he code stop
    rcases hn : (s.create ⟨.sag, none, none, 1⟩).2 with _ | n
    · rw [refused hn]
    · rw [granted n hn]

/-- Nothing is left open: no event, and no capture that is not CLOSING. -/
theorem sealedState_shut (s : State) (code : Nat) (cause : CapOutcome) : (s.sealedState code cause).ev.event = none ∧
    ∀ sl ∈ (s.sealedState code cause).cap.slots, sl.closing = true := by
  unfold State.sealedState
  rw [sealCaptures_eq]
  refine ⟨sealEvent_event .., fun sl hsl => ?_⟩
  obtain ⟨x, hx, rfl⟩ := List.mem_map.1 hsl
  by_cases shut : x.closing = true
  · exact shutBy_closing (.inl shut)
  · exact shutBy_closing (.inr ⟨x, List.mem_filter.2 ⟨hx, by simpa using shut⟩, rfl⟩)

/-- The two ways in which a close that begins leaves the part. -/
theorem closeSurvey_cases {s : State} (h : s.sup.sealing = none) (asked : List Nat) :
    ((s.sealedState 2 .cut).closingWritesEnded s.cap.runningRecords ∧
      s.closeSurvey asked = State.finishClose { s.sealedState 2 .cut with
        sup := { (s.sealedState 2 .cut).sup with sealing := none } } asked) ∨
    (¬(s.sealedState 2 .cut).closingWritesEnded s.cap.runningRecords ∧ s.closeSurvey asked = { s.sealedState 2 .cut with
      sup := { (s.sealedState 2 .cut).sup with sealing := some ⟨s.cap.runningRecords, .close asked⟩ } }) := by
  have begun : s.closeSurvey asked = State.endSealing { s.sealedState 2 .cut with
      sup := { (s.sealedState 2 .cut).sup with sealing := some ⟨s.cap.runningRecords, .close asked⟩ } } := closeSurvey_begins h asked
  by_cases ended : (s.sealedState 2 .cut).closingWritesEnded s.cap.runningRecords
  · refine .inl ⟨ended, ?_⟩
    rw [begun, endSealing_ends rfl (by exact ended)]
  · refine .inr ⟨ended, ?_⟩
    rw [begun, endSealing_waits rfl (by exact ended)]

/-- What a close that begins does not touch, and what it leaves open: nothing (R6). -/
theorem closeSurvey_frame {s : State} (h : s.sup.sealing = none) (asked : List Nat) : let t := s.closeSurvey asked
    t.ev.event = none ∧ (∀ sl ∈ t.cap.slots, sl.closing = true) ∧ t.rep = s.rep ∧ t.prn = s.prn ∧ t.notes = s.notes ∧
      t.clock = s.clock ∧ t.lev = s.lev ∧ t.mode = s.mode ∧ t.pins = s.pins ∧ t.straps = s.straps ∧
      (asked = [] → t.line = s.line) := by
  obtain ⟨rep, prn, notes, clock, lev, mode, pins, straps, -, -, line, -⟩ := sealedState_frame s 2 .cut
  obtain ⟨event, slots⟩ := sealedState_shut s 2 .cut
  rcases closeSurvey_cases h asked with ⟨-, t⟩ | ⟨-, t⟩
  · rw [t, finishClose_eq, foldl_answer_eq]
    refine ⟨(congrArg _ (stopHarmonic_ev ..)).trans event, fun sl hsl => slots sl ?_, (stopHarmonic_rep ..).trans rep,
      (stopHarmonic_prn ..).trans prn, (stopHarmonic_notes ..).trans notes, (stopHarmonic_clock ..).trans clock,
      (stopHarmonic_lev ..).trans lev, (stopHarmonic_mode ..).trans mode, (stopHarmonic_pins ..).trans pins,
      (stopHarmonic_straps ..).trans straps, fun none => ?_⟩
    · simpa only [stopHarmonic_cap] using hsl
    · rw [none]
      exact (stopHarmonic_line ..).trans line
  · rw [t]
    exact ⟨event, slots, rep, prn, notes, clock, lev, mode, pins, straps, fun _ => line⟩

theorem stopHarmonic_har (s : State) (supply : Bool) : (s.stopHarmonic supply).har = s.noInterval := by
  rcases h : s.har.accum with _ | x
  · rw [stopHarmonic_none h]
  · obtain ⟨granted, refused⟩ := stopHarmonic_some h supply
    rcases hn : (s.create ⟨.interval, none, none, 1⟩).2 with _ | n
    · rw [refused hn]
    · rw [granted n hn]

/-- Where no capture runs the close comes to its end at once. -/
theorem closeSurvey_ended {s : State} (h : s.sup.sealing = none) (idle : ∀ sl ∈ s.cap.slots, sl.running = false) (asked : List Nat) :
    let t := s.closeSurvey asked
    t.sup.sealing = none ∧ t.hdr = s.closedHeader ∧ t.har.current = none ∧ t.har.settling = none ∧ t.har.accum = none ∧
      t.tb = { s.tb with state := .stopped } ∧ StoreWrite.header t.hdr false ∈ t.store.writes ∧ t.ckpt = none ∧
      t.line = (asked.foldl (fun x sender => x.answer 2 0 0 false sender) s).line := by
  have records : s.cap.runningRecords = [] := by
    have empty : s.cap.slots.filter Slot.running = [] := List.filter_eq_nil_iff.2 fun sl hsl => by simp [idle sl hsl]
    rw [Capture.runningRecords, empty]
    rfl
  obtain ⟨-, -, -, clock, -, -, -, -, hdr, tb, line, -⟩ := sealedState_frame s 2 .cut
  rcases closeSurvey_cases h asked with ⟨-, t⟩ | ⟨waits, -⟩
  · have header : State.closedHeader { s.sealedState 2 .cut with
        sup := { (s.sealedState 2 .cut).sup with sealing := none } } = s.closedHeader := by
      show ({ (s.sealedState 2 .cut).hdr with state := .closed, checkpoint := (s.sealedState 2 .cut).clock.survey } : Header) = _
      rw [hdr, clock]
      rfl
    rw [t, finishClose_eq, header, foldl_answer_eq]
    refine ⟨congrArg _ (stopHarmonic_sup ..), rfl, congrArg _ (stopHarmonic_har ..), congrArg _ (stopHarmonic_har ..),
      congrArg _ (stopHarmonic_har ..), congrArg (fun x : Timebase => { x with state := .stopped }) tb,
      List.mem_append_right _ (List.mem_singleton.2 rfl), rfl, foldl_answer_line asked ?_ ?_⟩
    · exact (stopHarmonic_line ..).trans line
    · exact (stopHarmonic_clock ..).trans clock
  · exact absurd (fun r hr => absurd hr (by rw [records]; simp)) waits

/-! ## The timers of survey control (R8, R12) -/

theorem passToSurvey_inSurvey (s : State) (t : Nat) : (s.passToSurvey t).inSurvey = s.inSurvey := by
  unfold State.inSurvey State.isRunning
  rw [passToSurvey_mode, passToSurvey_hdr]

theorem surveyLimit_reached {s : State} (survey : s.inSurvey = true) : 4000000000 ≤ (s.passToSurvey 4000000000).clock.survey := by
  have running : s.surveyRuns = true := by
    unfold State.inSurvey at survey
    unfold State.surveyRuns
    obtain ⟨run, state⟩ := Bool.and_eq_true_iff.1 survey
    rw [run]
    rcases Bool.or_eq_true_iff.1 state with h | h <;> rw [eq_of_beq h] <;> rfl
  exact (passToSurvey_spec running (by decide)).1

/-- The survey time limit passes the time, and closes (R8). -/
theorem exec_surveyTimeLimit {s : State} (survey : s.inSurvey = true) :
    exec .surveyTimeLimit s = .next ((s.passToSurvey 4000000000).closeSurvey []) := by
  show execSurveyTimeLimit s = _
  unfold execSurveyTimeLimit
  rw [if_pos survey]
  refine congrArg _ (if_pos ?_)
  rw [show (s.passToSurvey Config.surveyLimit).inSurvey = true from (passToSurvey_inSurvey ..).trans survey]
  exact decide_eq_true (surveyLimit_reached survey)

/-- Settles O18: the close of R6 (`closeSurvey_closes`), and the header write of R12. -/
theorem surveyTimersWriteTheHeader : Obligations.SurveyTimersWriteTheHeader := by
  unfold Obligations.SurveyTimersWriteTheHeader
  intro s survey
  refine ⟨fun idle => ?_, fun busy => ?_, fun d ckpt => ?_⟩
  · have sealing : (s.passToSurvey 4000000000).sup.sealing = none := by rwa [passToSurvey_sup]
    obtain ⟨-, -, rep, -, -, clock, -, -, pins, -, line⟩ := closeSurvey_frame sealing []
    refine ⟨_, exec_surveyTimeLimit survey, closeSurvey_closes sealing [], ?_, (line rfl).trans (passToSurvey_line ..),
      rep.trans (passToSurvey_rep ..), pins.trans (passToSurvey_pins ..), fun quiet => ?_⟩
    · rw [clock]
      exact surveyLimit_reached survey
    · obtain ⟨-, hdr, -, -, -, tb, -⟩ := closeSurvey_ended sealing (by rwa [passToSurvey_cap]) []
      rw [hdr, clock, tb]
      exact ⟨rfl, rfl, rfl⟩
  · rw [exec_surveyTimeLimit survey, closeSurvey_unasked (by rwa [passToSurvey_sup])]
  · have run : exec .checkpointTimer s = .next (s.passTo d).writeHeader := by
      show execCheckpointTimer s = _
      unfold execCheckpointTimer
      rw [ckpt]
      exact congrArg _ (if_pos survey)
    have hdr := passTo_hdr s d
    have store := passTo_store s d
    have now := passTo_now s d
    have tb := passTo_tb s d
    have line := passTo_line s d
    have rep := passTo_rep s d
    have ctr := passTo_ctr s d
    have pins := passTo_pins s d
    have measures := (passTo_inSurvey s d).trans survey
    generalize s.passTo d = q at *
    have header : q.writeHeader.hdr = { s.hdr with checkpoint := q.clock.survey } :=
      congrArg (fun h : Header => { h with checkpoint := q.clock.survey }) hdr
    refine ⟨_, run, header, ?_, if_pos measures, now, tb, line, rep, ctr, pins⟩
    rw [header, ← hdr, ← store]
    rfl

end Sys2Proof.Machine
end

section
/-!
PROOF. SURVEY_CLOSE, and the close that goes on with the end of a write.
-/

namespace Sys2Proof.Machine

/-! ## Writes that end while nothing waits for a page write -/

/-- Neither an acceptance nor parking waits for a page write. -/
def Supply.quiet (p : Supply) : Prop := p.opening = none ∧ p.parkWait = false

/-- The state with its supply control set. -/
def State.withSup (s : State) (p : Supply) : State := { s with sup := p }

/-- An operation that neither reads nor changes the supply control of a state in which nothing waits for a page write, and leaves
the part's mode. -/
def leavesSup (f : State → State) : Prop :=
  ∀ s : State, s.sup.quiet → ((f s).sup = s.sup ∧ (f s).mode = s.mode) ∧ ∀ p : Supply, p.quiet → f (s.withSup p) = (f s).withSup p

theorem leavesSup.id : leavesSup fun s => s := fun _ _ => ⟨⟨rfl, rfl⟩, fun _ _ => rfl⟩

theorem leavesSup.comp {f g : State → State} (hf : leavesSup f) (hg : leavesSup g) : leavesSup fun s => g (f s) := fun s hs => by
  obtain ⟨⟨f1, fm⟩, f2⟩ := hf s hs
  obtain ⟨⟨g1, gm⟩, g2⟩ := hg (f s) (f1 ▸ hs)
  exact ⟨⟨g1.trans f1, gm.trans fm⟩, fun p hp => (congrArg g (f2 p hp)).trans (g2 p hp)⟩

theorem afterPage_quiet {s : State} (h : s.sup.quiet) : s.afterPage = s := afterPage_idle h.1 h.2

theorem recordFailed_leavesSup (e : Entry) : leavesSup fun s => s.recordFailed e := fun s _ => by
  unfold State.recordFailed
  rcases e.img.tag <;> exact ⟨⟨rfl, rfl⟩, fun _ _ => rfl⟩

/-- The producer of a record that fails for want of a page is told (R134). -/
def State.told (s : State) (second : Bool) : Option Entry → State
  | some e => if second then s else s.recordFailed e
  | none => s

theorem told_leavesSup (second : Bool) (e : Option Entry) : leavesSup fun s => s.told second e := by
  rcases e with _ | e
  · exact fun _ _ => ⟨⟨rfl, rfl⟩, fun _ _ => rfl⟩
  · cases second
    · exact recordFailed_leavesSup e
    · exact fun _ _ => ⟨⟨rfl, rfl⟩, fun _ _ => rfl⟩

/-- The page of a failed write is retired and counted (R133). -/
def State.retired (s : State) (x : Retiring) : State :=
  let out := s.store.settleRetiring x
  { s with store := out.1, ctr := { s.ctr with badPages := satAdd s.ctr.badPages 1 }.reclaimed out.2.2 }.told x.second out.2.1

theorem settleRetiring_retired {s : State} {x : Retiring} (hx : s.store.retiring = some x) (hl : x.listed = false) :
    s.settleRetiring = if (s.retired x).store.retiring.isSome then s.retired x else (s.retired x).afterPage := by
  unfold State.settleRetiring
  rw [hx]
  dsimp only
  rw [hl, if_neg (by decide)]
  have telling (u : State) (o : Option Entry) : (match o with
      | some e => if x.second then u else u.recordFailed e
      | none => u) = u.told x.second o := by
    rcases o with _ | e <;> rfl
  exact congrArg (fun v : State => if v.store.retiring.isSome then v else v.afterPage) (telling _ _)

theorem retired_leavesSup (x : Retiring) : leavesSup fun s => s.retired x := fun s hs => by
  let u : State := { s with
    store := (s.store.settleRetiring x).1
    ctr := { s.ctr with badPages := satAdd s.ctr.badPages 1 }.reclaimed (s.store.settleRetiring x).2.2 }
  exact told_leavesSup x.second (s.store.settleRetiring x).2.1 u hs

theorem settleRetiring_leavesSup : leavesSup State.settleRetiring := fun s hs => by
  by_cases settled : s.store.settledOk
  · rw [settleRetiring_none settled]
    exact ⟨⟨rfl, rfl⟩, fun p _ => settleRetiring_none (s := s.withSup p) settled⟩
  · obtain ⟨x, hx, hl⟩ : ∃ x, s.store.retiring = some x ∧ x.listed = false := by
      simpa [Store.settledOk] using settled
    have quiet (q : State) (hq : q.sup.quiet) (hx : q.store.retiring = some x) : q.settleRetiring = q.retired x := by
      have still : (q.retired x).sup.quiet := (retired_leavesSup x q hq).1.1 ▸ hq
      rw [settleRetiring_retired hx hl, afterPage_quiet still, ite_self]
    rw [quiet s hs hx]
    refine ⟨(retired_leavesSup x s hs).1, fun p hp => ?_⟩
    rw [quiet (s.withSup p) hp hx]
    exact (retired_leavesSup x s hs).2 p hp

theorem sysEnded_leavesSup (item : SysItem) (v : Bool) : leavesSup fun s => s.sysEnded item v := by
  cases item with
  | entry i r => exact fun _ _ => ⟨⟨rfl, rfl⟩, fun _ _ => rfl⟩
  | bad second =>
    intro s hs
    unfold State.sysEnded
    dsimp only
    split
    · exact settleRetiring_leavesSup s hs
    · exact ⟨⟨rfl, rfl⟩, fun _ _ => rfl⟩
  | ctl _ => exact fun _ _ => ⟨⟨rfl, rfl⟩, fun _ _ => rfl⟩

/-- An operation that changes the store alone, as the store alone says, before another. -/
theorem leavesSup.withStore {f : State → State} (hf : leavesSup f) (g : Store → Store) :
    leavesSup fun s => f { s with store := g s.store } := fun s hs => hf { s with store := g s.store } hs

/-- An operation chosen by the store. -/
theorem leavesSup.byStore {f : Store → State → State} (hf : ∀ st, leavesSup (f st)) : leavesSup fun s => f s.store s := fun s hs => hf s.store s hs

theorem leavesSup.ifStore {c : Store → Bool} {f g : State → State} (hf : leavesSup f) (hg : leavesSup g) :
    leavesSup fun s => if c s.store then f s else g s := fun s hs => by
  by_cases h : c s.store = true
  · have reduce (q : State) (hq : q.store = s.store) : (if c q.store then f q else g q) = f q := if_pos (by rw [hq, h])
    dsimp only
    rw [reduce s rfl]
    exact ⟨(hf s hs).1, fun p hp => (reduce (s.withSup p) rfl).trans ((hf s hs).2 p hp)⟩
  · have reduce (q : State) (hq : q.store = s.store) : (if c q.store then f q else g q) = g q := if_neg (by rw [hq]; exact h)
    dsimp only
    rw [reduce s rfl]
    exact ⟨(hg s hs).1, fun p hp => (reduce (s.withSup p) rfl).trans ((hg s hs).2 p hp)⟩

/-- The end of the first system write, as the store's queue says. -/
def State.sysDoneBy (s : State) (ok : Bool) : Option (StoreWrite × Store) → State
  | some (.sys item retried, st) =>
    if ok then { s with store := { st with nv := st.written item } }.sysEnded item true
    else if retried then { s with store := st.tearSys item }.sysEnded item false
    else { s with store := { st with writes := .sys item true :: st.writes } }
  | _ => s

theorem sysDone_eq (s : State) (ok : Bool) : s.sysDone ok = s.sysDoneBy ok (s.store.reach StoreWrite.isSys) := by
  unfold State.sysDone State.sysDoneBy
  rcases s.store.reach StoreWrite.isSys with _ | ⟨w, st⟩
  · rfl
  · cases w <;> rfl

theorem sysDoneBy_leavesSup (ok : Bool) (o : Option (StoreWrite × Store)) : leavesSup fun s => s.sysDoneBy ok o := by
  rcases o with _ | ⟨w, st⟩
  · exact leavesSup.id
  · cases w with
    | page => exact leavesSup.id
    | header => exact leavesSup.id
    | sys item retried =>
      cases ok
      · cases retried
        · exact fun _ _ => ⟨⟨rfl, rfl⟩, fun _ _ => rfl⟩
        · exact (sysEnded_leavesSup item false).withStore fun _ => st.tearSys item
      · exact (sysEnded_leavesSup item true).withStore fun _ => { st with nv := st.written item }

theorem sysDone_leavesSup (ok : Bool) : leavesSup fun s => s.sysDone ok := by
  have by' : leavesSup fun s => s.sysDoneBy ok (s.store.reach StoreWrite.isSys) :=
    leavesSup.byStore fun st => sysDoneBy_leavesSup ok (st.reach StoreWrite.isSys)
  have same : (fun s : State => s.sysDone ok) = fun s => s.sysDoneBy ok (s.store.reach StoreWrite.isSys) := funext fun s => sysDone_eq s ok
  rw [same]
  exact by'

theorem drain_leavesSup (which : StoreWrite → Bool) (n : Nat) : leavesSup (State.drain which n) := by
  induction n with
  | zero => exact leavesSup.id
  | succ n ih => exact leavesSup.ifStore (c := fun st => st.awaits which) ((sysDone_leavesSup true).comp ih) leavesSup.id

theorem reach_leavesSup (which : StoreWrite → Bool) : leavesSup fun s => s.reach which :=
  leavesSup.byStore fun st => drain_leavesSup which (st.writes.length + st.dir.length + 4)

theorem afterPage_leavesSup : leavesSup State.afterPage := fun s hs => by
  rw [afterPage_quiet hs]
  exact ⟨⟨rfl, rfl⟩, fun p hp => afterPage_quiet (s := s.withSup p) hp⟩

/-- A page write that matches, whose record is FILLING. -/
theorem pageVerified_leavesSup (r pos : Nat) (bs : List Byte) (next : PageNext) : leavesSup fun s => s.pageVerified r pos bs next :=
  fun _ _ => ⟨⟨rfl, rfl⟩, fun _ _ => rfl⟩

theorem pageFailed_leavesSup (e : Entry) (pos p : Nat) (bs : List Byte) (next : PageNext) :
    leavesSup fun s => s.pageFailed e pos p bs next := by
  unfold State.pageFailed
  split
  · exact fun _ _ => ⟨⟨rfl, rfl⟩, fun _ _ => rfl⟩
  · exact (recordFailed_leavesSup e).withStore fun st => st.mismatch e pos p bs next

/-- The end of a page write, as the entry of its record says. -/
def State.pageEndedBy (s : State) (r pos : Nat) (bs : List Byte) (next : PageNext) (ok : Bool) : Option Entry → State
  | some e =>
    if e.img.sealed then s.afterPage
    else if ok then (s.pageVerified r pos bs next).afterPage
    else match e.img.pages[pos]? with
      | some p => s.pageFailed e pos p bs next
      | none => s.afterPage
  | none => s.afterPage

theorem pageEndedBy_leavesSup (r pos : Nat) (bs : List Byte) (next : PageNext) (ok : Bool) (e : Option Entry) :
    leavesSup fun s => s.pageEndedBy r pos bs next ok e := by
  rcases e with _ | e
  · exact afterPage_leavesSup
  · unfold State.pageEndedBy
    dsimp only
    cases e.img.sealed
    · cases ok
      · rcases e.img.pages[pos]? with _ | p
        · exact afterPage_leavesSup
        · exact pageFailed_leavesSup e pos p bs next
      · exact (pageVerified_leavesSup r pos bs next).comp afterPage_leavesSup
    · exact afterPage_leavesSup

theorem pageEnded_eq (s : State) (r pos : Nat) (bs : List Byte) (next : PageNext) (ok : Bool) :
    s.pageEnded r pos bs next ok = s.pageEndedBy r pos bs next ok (s.store.entryOf r) := by
  unfold State.pageEnded State.pageEndedBy
  rcases s.store.entryOf r with _ | e <;> rfl

theorem pageEnded_leavesSup (r pos : Nat) (bs : List Byte) (next : PageNext) (ok : Bool) :
    leavesSup fun s => s.pageEnded r pos bs next ok := by
  have same : (fun s : State => s.pageEnded r pos bs next ok) = fun s => s.pageEndedBy r pos bs next ok (s.store.entryOf r) :=
    funext fun s => pageEnded_eq ..
  rw [same]
  exact leavesSup.byStore fun st => pageEndedBy_leavesSup r pos bs next ok (st.entryOf r)

/-- The end of the first page write, as the store's queue says. -/
def State.pageReached (s : State) (ok : Bool) : Option (StoreWrite × Store) → State
  | some (.page r pos bs next, st) => { s with store := st }.pageEnded r pos bs next ok
  | _ => s

theorem pageReached_leavesSup (ok : Bool) (o : Option (StoreWrite × Store)) : leavesSup fun s => s.pageReached ok o := by
  rcases o with _ | ⟨w, st⟩
  · exact leavesSup.id
  · cases w with
    | page r pos bs next => exact (pageEnded_leavesSup r pos bs next ok).withStore fun _ => st
    | sys => exact leavesSup.id
    | header => exact leavesSup.id

theorem pageDone_eq (s : State) (ok : Bool) : s.pageDone ok = if s.store.writes.any StoreWrite.isPage then
    (s.reach StoreWrite.isPage).settleRetiring.pageReached ok
      ((s.reach StoreWrite.isPage).settleRetiring.store.reach StoreWrite.isPage) else s := by
  have reached (u : State) (o : Option (StoreWrite × Store)) : (match o with
      | some (.page r pos bs next, st) => { u with store := st }.pageEnded r pos bs next ok
      | _ => u) = u.pageReached ok o := by
    rcases o with _ | ⟨w, st⟩
    · rfl
    · cases w <;> rfl
  exact congrArg (fun v => if s.store.writes.any StoreWrite.isPage then v else s) (reached _ _)

theorem pageDone_leavesSup (ok : Bool) : leavesSup fun s => s.pageDone ok := by
  have same : (fun s : State => s.pageDone ok) = _ := funext fun s => pageDone_eq s ok
  rw [same]
  exact leavesSup.ifStore (c := fun st => st.writes.any StoreWrite.isPage)
    (((reach_leavesSup StoreWrite.isPage).comp settleRetiring_leavesSup).comp
      (leavesSup.byStore fun st => pageReached_leavesSup ok (st.reach StoreWrite.isPage))) leavesSup.id

theorem headerDone_leavesSup (ok : Bool) : leavesSup fun s => s.headerDone ok :=
  (reach_leavesSup StoreWrite.isHeader).comp (leavesSup.id.withStore fun st => st.headerDone ok)

/-! ## The commands that end a write -/

/-- What a command that ends a write does before what waits for it goes on. -/
theorem endsAWrite_core {c : Instr} (h : endsAWrite c) : ∃ f, leavesSup f ∧ ∀ s : State, s.mode ≠ .off → exec c s = .next (f s).afterWrite := by
  obtain ⟨ok, rfl | rfl | rfl⟩ := h
  · exact ⟨_, pageDone_leavesSup ok, fun s on => congrArg _ (if_neg on)⟩
  · exact ⟨_, sysDone_leavesSup ok, fun s on => congrArg _ (if_neg on)⟩
  · exact ⟨_, headerDone_leavesSup ok, fun s on => congrArg _ (if_neg on)⟩

/-- The end of a write while a sealing stage is under way: what the write does by itself, and then what the stage does. -/
theorem endsAWrite_sealing {c : Instr} (h : endsAWrite c) {s : State} (on : s.mode ≠ .off) (due : s.sup.restartDue = none)
    (opening : s.sup.opening = none) (wait : s.sup.parkWait = false) :
    ∃ u : State, exec c { s with sup := { s.sup with sealing := none } } = .next u ∧ u.sup = { s.sup with sealing := none } ∧
      u.mode = s.mode ∧ exec c s = .next ({ u with sup := s.sup } : State).afterWrite := by
  obtain ⟨f, leaves, run⟩ := endsAWrite_core h
  have quiet : Supply.quiet { s.sup with sealing := none } := ⟨opening, wait⟩
  obtain ⟨⟨sup, mode⟩, change⟩ := leaves { s with sup := { s.sup with sealing := none } } quiet
  refine ⟨f { s with sup := { s.sup with sealing := none } }, ?_, sup, mode, ?_⟩
  · rw [run { s with sup := { s.sup with sealing := none } } on, afterWrite_idle (by rw [sup]) (by rw [sup]; exact due)]
  · rw [run s on]
    exact congrArg (fun x : State => Host.Outcome.next x.afterWrite) (change s.sup ⟨opening, wait⟩)

/-! ## SURVEY_CLOSE (R7) -/

theorem inSurvey_state {s : State} (h : s.inSurvey = true) : s.hdr.state = .recording ∨ s.hdr.state = .rejoining := by
  simpa using (Bool.and_eq_true_iff.1 h).2

theorem surveyClose_closes {s : State} (survey : s.inSurvey = true) {n : Nat} (number : n = s.hdr.number) (sender : Nat) :
    s.surveyClose sender n = s.closeSurvey [sender] := by
  unfold State.surveyClose
  rw [if_neg (not_not.2 number)]
  rcases inSurvey_state survey with h | h <;> rw [h]

/-- The end of a write, where a close or parking has sealed captures and nothing else waits: what was under way goes on. -/
theorem afterWrite_sealing {s t : State} (h : s.sup.sealing ≠ none) (goes : s.endSealing = t) (due : t.sup.restartDue = none)
    (park : t.sup.parkDue = false) : s.afterWrite = t := by
  obtain ⟨x, hx⟩ := Option.ne_none_iff_exists'.1 h
  have on : s.sealingGoesOn = t := by
    unfold State.sealingGoesOn
    rw [hx, goes]
    dsimp only
    rw [park, Bool.and_false]
    rfl
  unfold State.afterWrite
  rw [on]
  dsimp only
  rw [due]

theorem finishClose_sup (s : State) (asked : List Nat) : (s.finishClose asked).sup = s.sup := by
  rw [finishClose_eq, foldl_answer_eq]
  exact stopHarmonic_sup ..

/-- A close that waits for its captures' closing writes, at the end of a write. -/
theorem endsAWrite_close {c : Instr} (ends : endsAWrite c) {s : State} {records asked : List Nat} (run : s.mode = .running)
    (sealing : s.sup.sealing = some ⟨records, .close asked⟩) (due : s.sup.restartDue = none) (opening : s.sup.opening = none)
    (wait : s.sup.parkWait = false) (park : s.sup.parkDue = false) :
    ∃ t u, exec c s = .next t ∧ exec c { s with sup := { s.sup with sealing := none } } = .next u ∧
      (u.closingWritesEnded records → t.closeFinished u asked) ∧ (¬u.closingWritesEnded records → t = { u with sup := s.sup }) := by
  obtain ⟨u, alone, sup, -, both⟩ := endsAWrite_sealing ends (by rw [run]; decide) due opening wait
  have busy : s.sup.sealing ≠ none := by rw [sealing]; exact Option.some_ne_none _
  by_cases ended : u.closingWritesEnded records
  · have goes := endSealing_ends (s := { u with sup := s.sup }) sealing (by exact ended)
    have finished := finishClose_finished u asked
    rw [sup] at finished
    refine ⟨_, u, both, alone, fun _ => ?_, fun waits => absurd ended waits⟩
    rwa [afterWrite_sealing (by exact busy) goes]
    · exact (congrArg (fun p : Supply => p.restartDue) (finishClose_sup ..)).trans due
    · exact (congrArg (fun p : Supply => p.parkDue) (finishClose_sup ..)).trans park
  · have waits := endSealing_waits (s := { u with sup := s.sup }) sealing (by exact ended)
    exact ⟨_, u, both, alone, fun now => absurd now ended, fun _ => afterWrite_sealing (by exact busy) waits due park⟩

/-- Settles O17: the closing operation (`closeSurvey_closes`, `closeSurvey_frame`, `closeSurvey_ended`), and the close that goes on
with the end of a write (`endsAWrite_close`). -/
theorem surveyCloseCloses : Obligations.SurveyCloseCloses := by
  unfold Obligations.SurveyCloseCloses
  refine ⟨fun rx n s takes measures number => ?_, fun s records asked run sealing => ⟨fun rx n takes survey number => ?_, fun x => ?_,
    fun c ends due opening wait park => endsAWrite_close ends run sealing due opening wait park⟩⟩
  · obtain ⟨survey, idle⟩ := (measuring_iff s).1 measures
    have sealing : (s.heard rx).sup.sealing = none := idle
    obtain ⟨event, slots, rep, prn, notes, clock, lev, mode, pins, straps, -⟩ := closeSurvey_frame sealing [rx.sender.toNat]
    refine ⟨_, (exec_surveyClose_takes takes n).trans (congrArg _ (surveyClose_closes (s := s.heard rx) survey number _)),
      closeSurvey_closes sealing _, event, slots, rep, prn, notes, clock, lev, mode, pins, straps, fun quiet => ?_⟩
    exact closeSurvey_ended (s := s.heard rx) sealing quiet [rx.sender.toNat]
  · rw [exec_surveyClose_takes takes, surveyClose_closes (s := s.heard rx) survey number, closeSurvey_again (by exact sealing)]
    rfl
  · have busy : s.measuring = false := by
      simp [State.measuring, sealing]
    show execInstant ⟨x, none⟩ s = _
    unfold execInstant
    rw [busy]
    rfl

end Sys2Proof.Machine
end

section
/-!
PROOF. Parking: its stages, the command that begins it, and the write that lets it go on.
-/

namespace Sys2Proof.Machine

/-! ## The jobs end without frames (R20 stage 5) -/

theorem foldl_endJob_abandoned (l : List Job) (s : State) : l.foldl (fun s j => s.endJob j .abandoned) s = { s with
    store := l.foldl (fun st j => j.records.foldl Store.unpin st) s.store
    ctr := l.foldl (fun k _ => { k with jobsAbandoned := satAdd k.jobsAbandoned 1 }) s.ctr
    rep := { s.rep with jobs := s.rep.jobs.filter fun x => !(l.map (·.entry)).contains x.entry } } := by
  induction l generalizing s with
  | nil =>
    have all : (s.rep.jobs.filter fun x => !(([] : List Job).map (·.entry)).contains x.entry) = s.rep.jobs :=
      List.filter_eq_self.2 fun _ _ => rfl
    rw [all]
    rfl
  | cons j l ih =>
    have jobs : ((s.rep.jobs.filter fun x => x.entry != j.entry).filter fun x => !(l.map (·.entry)).contains x.entry) =
        s.rep.jobs.filter fun x => !((j :: l).map (·.entry)).contains x.entry := by
      rw [List.filter_filter]
      refine List.filter_congr fun x _ => ?_
      rw [List.map_cons, List.contains_cons, Bool.not_or, Bool.and_comm]
      rfl
    rw [List.foldl_cons, endJob_undone (by decide), ih]
    dsimp only
    rw [jobs]
    rfl

/-- The releases of pins leave the store's writes. -/
theorem foldl_unpins_writes (l : List Job) (st : Store) :
    (l.foldl (fun st j => j.records.foldl Store.unpin st) st).writes = st.writes := by
  induction l generalizing st with
  | nil => rfl
  | cons j l ih => rw [List.foldl_cons, ih, foldl_unpin_eq]

/-- They leave an empty directory empty. -/
theorem foldl_unpins_empty (l : List Job) {st : Store} (h : st.dir = []) :
    (l.foldl (fun st j => j.records.foldl Store.unpin st) st).dir = [] := by
  induction l generalizing st with
  | nil => exact h
  | cons j l ih =>
    refine ih (st := j.records.foldl Store.unpin st) ?_
    rw [foldl_unpin_eq]
    exact (congrArg (List.map _) h).trans rfl

/-! ## The stages of parking (R20) -/

/-- The header with which a part parks. -/
def State.parkedHeader (s : State) : Header := { s.hdr with checkpoint := s.clock.survey }

theorem finishPark_eq (s : State) : s.finishPark = { s.stopHarmonic true with
    hdr := s.parkedHeader
    ckpt := none
    tb := { s.tb with state := .stopped }
    rep := { s.rep with jobs := [] }
    ctr := s.rep.jobs.foldl (fun k _ => { k with jobsAbandoned := satAdd k.jobsAbandoned 1 }) (s.stopHarmonic true).ctr
    store := { s.rep.jobs.foldl (fun st j => j.records.foldl Store.unpin st) (s.stopHarmonic true).store with
      writes := (s.stopHarmonic true).store.writes ++ [.header s.parkedHeader false] }
    line := { s.line with beaconTimer := none }
    prn := { s.prn with inactivity := none, goTimer := none } } := by
  have none' : (s.rep.jobs.filter fun x => !(s.rep.jobs.map (·.entry)).contains x.entry) = [] := by
    refine List.filter_eq_nil_iff.2 fun x hx => ?_
    simpa using ⟨x, hx, rfl⟩
  unfold State.finishPark
  dsimp only
  rw [foldl_endJob_abandoned]
  unfold State.writeHeader State.stopTimebase Store.push State.parkedHeader
  dsimp only
  rw [stopHarmonic_tb, stopHarmonic_hdr, stopHarmonic_clock, stopHarmonic_rep, stopHarmonic_line, stopHarmonic_prn, none',
    foldl_unpins_writes]

theorem finishPark_finished (b : State) : ({ b with sup := { b.sup with sealing := none } }.finishPark).parkFinished b :=
  ⟨_, stopHarmonic_sealed .., finishPark_eq _⟩

theorem finishPark_sup (s : State) : s.finishPark.sup = s.sup := by
  rw [finishPark_eq]
  exact stopHarmonic_sup ..

/-- The state in which the stages 2 to 7 of parking begin. -/
def State.parkBase (s : State) : State := { s with
  sup := { s.sup with parkWait := false }
  store := { s.store with writes := s.store.writes.filter s.store.keptAtParking } }

/-- The state in which parking has handed over the closing writes of the captures. -/
def State.parkSealed (s : State) : State := s.parkBase.sealedState 3 .supply

theorem parkSealed_begun (s : State) : s.parkBase.sealingBegun s.parkSealed 3 .supply :=
  ⟨_, sealEvent_sealed .., sealCaptures_sealed ..⟩

/-- The two ways in which the stages 2 to 7 of parking leave the part. -/
theorem runPark_cases (s : State) :
    (s.parkSealed.closingWritesEnded s.cap.runningRecords ∧
      s.runPark = State.finishPark { s.parkSealed with sup := { s.parkSealed.sup with sealing := none } }) ∨
    (¬s.parkSealed.closingWritesEnded s.cap.runningRecords ∧
      s.runPark = { s.parkSealed with sup := { s.parkSealed.sup with sealing := some ⟨s.cap.runningRecords, .park⟩ } }) := by
  have begun : s.runPark = State.endSealing { s.parkSealed with
      sup := { s.parkSealed.sup with sealing := some ⟨s.cap.runningRecords, .park⟩ } } := rfl
  by_cases ended : s.parkSealed.closingWritesEnded s.cap.runningRecords
  · refine .inl ⟨ended, ?_⟩
    rw [begun, endSealing_ends rfl (by exact ended)]
  · refine .inr ⟨ended, ?_⟩
    rw [begun, endSealing_waits rfl (by exact ended)]

theorem runPark_parks (s : State) : s.runPark.parksFrom s := by
  refine ⟨s.parkSealed, parkSealed_begun s, fun ended => ?_, fun waits => ?_⟩
  · obtain ⟨-, t⟩ | ⟨waits, -⟩ := runPark_cases s
    · rw [t]
      exact finishPark_finished ..
    · exact absurd ended waits
  · obtain ⟨ended, -⟩ | ⟨-, t⟩ := runPark_cases s
    · exact absurd ended waits
    · exact t

theorem enterPark_entered (s : State) : s.enterPark.parkEntered s :=
  ⟨fun busy => if_pos busy, fun free => by
    have runs : s.enterPark = State.runPark { s with
        mode := .parked, line := { s.line with queue := [] }, sup := { s.sup with parkDue := false } } := if_neg (by simpa using free)
    rw [runs]
    exact runPark_parks _⟩

theorem parkSealed_frame (s : State) : let b := s.parkSealed
    b.rep = s.rep ∧ b.prn = s.prn ∧ b.notes = s.notes ∧ b.clock = s.clock ∧ b.lev = s.lev ∧ b.mode = s.mode ∧ b.pins = s.pins ∧
      b.straps = s.straps ∧ b.hdr = s.hdr ∧ b.tb = s.tb ∧ b.line = s.line ∧ b.sup = { s.sup with parkWait := false } ∧
      b.har = s.har ∧ b.ckpt = s.ckpt := sealedState_frame s.parkBase 3 .supply

/-- What the stages 2 to 7 of parking do not touch, and what they leave open: nothing (R20). -/
theorem runPark_frame (s : State) : let t := s.runPark
    t.mode = s.mode ∧ t.pins = s.pins ∧ t.line.queue = s.line.queue ∧ t.clock = s.clock ∧ t.straps = s.straps ∧
      t.sup.restartDue = s.sup.restartDue ∧ t.sup.opening = s.sup.opening ∧ t.sup.parkDue = s.sup.parkDue ∧
      t.ev.event = none ∧ ∀ sl ∈ t.cap.slots, sl.closing = true := by
  obtain ⟨-, -, -, clock, -, mode, pins, straps, -, -, line, sup, -⟩ := parkSealed_frame s
  obtain ⟨event, slots⟩ : s.parkSealed.ev.event = none ∧ ∀ sl ∈ s.parkSealed.cap.slots, sl.closing = true :=
    sealedState_shut s.parkBase 3 .supply
  have queue : s.parkSealed.line.queue = s.line.queue := by rw [line]
  have restart : s.parkSealed.sup.restartDue = s.sup.restartDue := by rw [sup]
  have opening : s.parkSealed.sup.opening = s.sup.opening := by rw [sup]
  have due : s.parkSealed.sup.parkDue = s.sup.parkDue := by rw [sup]
  rcases runPark_cases s with ⟨-, t⟩ | ⟨-, t⟩
  · rw [t, finishPark_eq]
    refine ⟨(stopHarmonic_mode ..).trans mode, (stopHarmonic_pins ..).trans pins, queue,
      (stopHarmonic_clock ..).trans clock, (stopHarmonic_straps ..).trans straps,
      (congrArg Supply.restartDue (stopHarmonic_sup ..)).trans restart,
      (congrArg Supply.opening (stopHarmonic_sup ..)).trans opening, (congrArg Supply.parkDue (stopHarmonic_sup ..)).trans due,
      (congrArg _ (stopHarmonic_ev ..)).trans event, fun sl hsl => slots sl ?_⟩
    simpa only [stopHarmonic_cap] using hsl
  · rw [t]
    exact ⟨mode, pins, queue, clock, straps, restart, opening, due, event, slots⟩

theorem runningRecords_none {c : Capture} (idle : ∀ sl ∈ c.slots, sl.running = false) : c.runningRecords = [] := by
  have empty : c.slots.filter Slot.running = [] := List.filter_eq_nil_iff.2 fun sl hsl => by simp [idle sl hsl]
  rw [Capture.runningRecords, empty]
  rfl

/-- Where no capture runs parking comes to its end at once. -/
theorem runPark_ended {s : State} (idle : ∀ sl ∈ s.cap.slots, sl.running = false) : let t := s.runPark
    t.sup.sealing = none ∧ t.line.beaconTimer = none ∧ t.har.current = none ∧ t.har.settling = none ∧ t.har.accum = none ∧
      t.rep.jobs = [] ∧ t.hdr = s.parkedHeader ∧ StoreWrite.header t.hdr false ∈ t.store.writes ∧ t.ckpt = none ∧
      t.tb.state = .stopped := by
  obtain ⟨-, -, -, clock, -, -, -, -, hdr, -⟩ := parkSealed_frame s
  rcases runPark_cases s with ⟨-, t⟩ | ⟨waits, -⟩
  · have header : State.parkedHeader { s.parkSealed with sup := { s.parkSealed.sup with sealing := none } } = s.parkedHeader := by
      show ({ s.parkSealed.hdr with checkpoint := s.parkSealed.clock.survey } : Header) = _
      rw [hdr, clock]
      rfl
    rw [t, finishPark_eq, header]
    exact ⟨congrArg _ (stopHarmonic_sup ..), rfl, congrArg _ (stopHarmonic_har ..), congrArg _ (stopHarmonic_har ..),
      congrArg _ (stopHarmonic_har ..), rfl, rfl, List.mem_append_right _ (List.mem_singleton.2 rfl), rfl, rfl⟩
  · exact absurd (fun r hr => absurd hr (by rw [runningRecords_none idle]; simp)) waits

/-- Nothing goes on with the same command once parking runs its stages. -/
theorem runPark_afterWrite {s : State} (mode : s.mode = .parked) (due : s.sup.restartDue = none) : s.runPark.afterWrite = s.runPark := by
  obtain ⟨parked, -, -, -, -, restart, -⟩ := runPark_frame s
  have stays : s.runPark.endSealing = s.runPark := by
    rcases runPark_cases s with ⟨-, t⟩ | ⟨waits, t⟩
    · refine endSealing_none ?_
      rw [t, finishPark_sup]
    · rw [t]
      exact endSealing_waits rfl (by exact waits)
  have still : s.runPark.isRunning = false := by
    unfold State.isRunning
    rw [parked, mode]
    rfl
  have on : s.runPark.sealingGoesOn = s.runPark := by
    unfold State.sealingGoesOn
    rw [stays]
    dsimp only
    rw [still]
    rcases s.runPark.sup.sealing <;> rfl
  unfold State.afterWrite
  rw [on]
  dsimp only
  rw [restart, due]

/-! ## The end of the page write under way (R4, R20) -/

theorem Store.settleRetiring_second (st : Store) {x : Retiring} (h : x.second = true) : (st.settleRetiring x).1.retiring = none := by
  rcases st.settleRetiring_cases x with out | ⟨e, -, -, -, out⟩ | ⟨-, -, -, -, -, -, first, -⟩
  · rw [out]
  · rw [out]
    unfold Store.fail
    split <;> rfl
  · rw [h] at first
    cases first

/-- At a record's second failure its producer has been told already (R134). -/
theorem told_second {second : Bool} (h : second = true) (u : State) (o : Option Entry) : u.told second o = u := by
  rcases o with _ | e
  · rfl
  · exact if_pos h

/-- The retirement that ends a record's second failure, in a state whose supply control is `p`. -/
theorem settleRetiring_second {s : State} {x : Retiring} (hx : s.store.retiring = some x) (hl : x.listed = false)
    (second : x.second = true) : s.settleRetiring = State.afterPage { s with
      store := (s.store.settleRetiring x).1
      ctr := { s.ctr with badPages := satAdd s.ctr.badPages 1 }.reclaimed (s.store.settleRetiring x).2.2 } := by
  have retired : s.retired x = { s with
      store := (s.store.settleRetiring x).1
      ctr := { s.ctr with badPages := satAdd s.ctr.badPages 1 }.reclaimed (s.store.settleRetiring x).2.2 } := by
    unfold State.retired
    exact told_second second ..
  rw [settleRetiring_retired hx hl, retired]
  exact if_neg (by rw [Store.settleRetiring_second _ second]; decide)

/-- A page write that matches: what it changes, before what waited for it goes on. -/
theorem pageEnded_ends (s : State) (r pos : Nat) (bs : List Byte) (next : PageNext) : ∃ st cap,
    ∀ p, (s.withSup p).pageEnded r pos bs next true = State.afterPage { s with store := st, cap := cap, sup := p } := by
  rcases he : s.store.entryOf r with _ | e
  · refine ⟨s.store, s.cap, fun p => ?_⟩
    have entry : (s.withSup p).store.entryOf r = none := he
    unfold State.pageEnded
    rw [entry]
    rfl
  · have entry (p : Supply) : (s.withSup p).store.entryOf r = some e := he
    by_cases isSealed : e.img.sealed = true
    · refine ⟨s.store, s.cap, fun p => ?_⟩
      unfold State.pageEnded
      rw [entry]
      exact if_pos isSealed
    · refine ⟨s.store.pageMatch r pos bs next, if next = .seal then s.cap.freeRecord r else s.cap, fun p => ?_⟩
      exact pageEnded_match (entry p) (by simpa using isSealed) pos bs next

/-- The command that ends the page write under way: what it does by itself, and then what waited for it. -/
theorem endsPageWrite_core {s : State} {c : Instr} (h : s.endsPageWrite c) (on : s.mode ≠ .off) : ∃ st ctr cap,
    ∀ p, exec c (s.withSup p) = .next (State.afterPage { s with store := st, ctr := ctr, cap := cap, sup := p }).afterWrite := by
  rcases h with ⟨rfl, settled, r, pos, bs, next, rest, here⟩ | ⟨ok, copy, retried, rest, x, rfl, here, hx, hl, second, ends⟩
  · obtain ⟨st, cap, ended⟩ := pageEnded_ends { s with store := { s.store with writes := rest } } r pos bs next
    refine ⟨st, s.ctr, cap, fun p => ?_⟩
    have done := (pageDone_front (s := s.withSup p) here settled true).trans (ended p)
    have run : exec (.pageWriteComplete true) (s.withSup p) = .next ((s.withSup p).pageDone true).afterWrite := congrArg _ (if_neg on)
    exact run.trans (congrArg (fun x : State => Host.Outcome.next x.afterWrite) done)
  · have ends' : (st : Store) → st.retiring = some x → (p : Supply) → (b : Bool) → (b = true ∨ copy = true) →
        State.sysEnded { s.withSup p with store := st } (.bad copy) b = State.afterPage { s with
          store := (st.settleRetiring x).1
          ctr := { s.ctr with badPages := satAdd s.ctr.badPages 1 }.reclaimed (st.settleRetiring x).2.2
          sup := p } := fun st hst p b hb => by
      have settles : State.sysEnded { s.withSup p with store := st } (.bad copy) b =
          State.settleRetiring { s.withSup p with store := st } := if_pos (by rcases hb with h | h <;> simp [h])
      exact settles.trans (settleRetiring_second (s := { s.withSup p with store := st }) hst hl second)
    obtain ⟨st, hst, b, hb, done⟩ : ∃ st : Store, st.retiring = some x ∧ ∃ b : Bool, (b = true ∨ copy = true) ∧
        ∀ p, (s.withSup p).sysDone ok = State.sysEnded { s.withSup p with store := st } (.bad copy) b := by
      rcases ok with _ | _
      · obtain ⟨rfl, rfl⟩ := ends.resolve_left (by decide)
        obtain ⟨nv, torn, -⟩ := Store.tearSys_spec { s.store with writes := rest } (.bad true)
        refine ⟨Store.tearSys { s.store with writes := rest } (.bad true), ?_, false, .inr rfl, fun p => (sysDone_front (s := s.withSup p) here false).trans
          ((if_neg (by decide)).trans (if_pos rfl))⟩
        rw [torn]
        exact hx
      · refine ⟨{ s.store with writes := rest, nv := s.store.written (.bad copy) }, hx, true, .inl rfl, fun p => ?_⟩
        exact (sysDone_front (s := s.withSup p) here true).trans (if_pos rfl)
    refine ⟨(st.settleRetiring x).1, { s.ctr with badPages := satAdd s.ctr.badPages 1 }.reclaimed (st.settleRetiring x).2.2, s.cap,
      fun p => ?_⟩
    have run : exec (.systemWriteComplete ok) (s.withSup p) = .next ((s.withSup p).sysDone ok).afterWrite := congrArg _ (if_neg on)
    exact run.trans (congrArg (fun x : State => Host.Outcome.next x.afterWrite) ((done p).trans (ends' st hst p b hb)))

/-! ## Parking goes on with the end of a write (R20, R95) -/

/-- Parking that waited for the page write under way, at its end. -/
theorem endsPageWrite_parks {s : State} {c : Instr} (ends : s.endsPageWrite c) (due : s.sup.restartDue = none)
    (sealing : s.sup.sealing = none) (mode : s.mode = .parked) (opening : s.sup.opening = none) (wait : s.sup.parkWait = true) :
    ∃ t u, exec c s = .next t ∧ exec c { s with sup := { s.sup with parkWait := false } } = .next u ∧ t.parksFrom u := by
  obtain ⟨st, ctr, cap, core⟩ := endsPageWrite_core ends (by rw [mode]; decide)
  let u (p : Supply) : State := { s with store := st, ctr := ctr, cap := cap, sup := p }
  have goes : (u s.sup).afterPage = (u s.sup).runPark := by
    unfold State.afterPage
    rw [show (u s.sup).sup.opening = none from opening]
    exact if_pos wait
  have stays : (u { s.sup with parkWait := false }).afterPage = u { s.sup with parkWait := false } :=
    afterPage_idle (by exact opening) (by rfl)
  refine ⟨(u s.sup).runPark, u { s.sup with parkWait := false }, ?_, ?_, runPark_parks (u s.sup)⟩
  · refine (core s.sup).trans (congrArg Host.Outcome.next ?_)
    exact (congrArg State.afterWrite goes).trans (runPark_afterWrite (by exact mode) (by exact due))
  · refine (core { s.sup with parkWait := false }).trans (congrArg Host.Outcome.next ?_)
    exact (congrArg State.afterWrite stays).trans (afterWrite_idle (by exact sealing) (by exact due))

/-- What an acceptance leaves, whatever waits for its end. -/
theorem finishOpening_withSup (s : State) (p : Supply) (q : OpenRequest) :
    (s.withSup p).finishOpening q = (s.finishOpening q).withSup { p with opening := none } := rfl

/-- Parking that waits for one capture after another to end its closing writes. -/
theorem endsAWrite_parks {c : Instr} (ends : endsAWrite c) {s : State} {records : List Nat} (mode : s.mode = .parked)
    (sealing : s.sup.sealing = some ⟨records, .park⟩) (due : s.sup.restartDue = none) (opening : s.sup.opening = none)
    (wait : s.sup.parkWait = false) :
    ∃ t u, exec c s = .next t ∧ exec c { s with sup := { s.sup with sealing := none } } = .next u ∧
      (u.closingWritesEnded records → t.parkFinished u) ∧ (¬u.closingWritesEnded records → t = { u with sup := s.sup }) := by
  obtain ⟨u, alone, sup, still, both⟩ := endsAWrite_sealing ends (by rw [mode]; decide) due opening wait
  let v : State := { u with sup := s.sup }
  have busy : v.sup.sealing = some ⟨records, .park⟩ := sealing
  have on {t : State} (goes : v.endSealing = t) (parked : t.mode = .parked) (due : t.sup.restartDue = none) : v.afterWrite = t := by
    unfold State.afterWrite State.sealingGoesOn
    rw [busy]
    dsimp only
    rw [goes, if_neg (by simp [State.isRunning, parked])]
    rw [due]
  by_cases ended : u.closingWritesEnded records
  · have finished := finishPark_finished u
    rw [sup] at finished
    refine ⟨_, u, both.trans (congrArg _ (on (endSealing_ends busy (by exact ended)) ?_ ?_)), alone, fun _ => finished,
      fun waits => absurd ended waits⟩
    · rw [finishPark_eq]
      exact (stopHarmonic_mode ..).trans (still.trans mode)
    · rw [finishPark_sup]
      exact due
  · exact ⟨_, u, both.trans (congrArg _ (on (endSealing_waits busy (by exact ended)) (still.trans mode) due)), alone,
      fun now => absurd now ended, fun _ => rfl⟩

/-! ## The entry into PARKED (R20) -/

theorem enterPark_frame (s : State) : let t := s.enterPark
    t.mode = .parked ∧ t.pins = s.pins ∧ t.line.queue = [] ∧ t.clock = s.clock ∧ t.straps = s.straps ∧
      t.sup.restartDue = s.sup.restartDue := by
  obtain ⟨waits, goes⟩ := enterPark_entered s
  by_cases busy : s.store.pageUnderWay = true
  · rw [waits busy]
    exact ⟨rfl, rfl, rfl, rfl, rfl, rfl⟩
  · have runs : s.enterPark = State.runPark { s with
        mode := .parked, line := { s.line with queue := [] }, sup := { s.sup with parkDue := false } } := if_neg busy
    rw [runs]
    obtain ⟨mode, pins, queue, clock, straps, due, -⟩ := runPark_frame { s with
        mode := .parked, line := { s.line with queue := [] }, sup := { s.sup with parkDue := false } }
    exact ⟨mode, pins, queue, clock, straps, due⟩

/-- A close that SUPPLY WARN came upon is followed by parking at the end of its last write (R20). -/
theorem endsAWrite_closeParks {c : Instr} (ends : endsAWrite c) {s : State} {records asked : List Nat} (run : s.mode = .running)
    (sealing : s.sup.sealing = some ⟨records, .close asked⟩) (due : s.sup.restartDue = none) (opening : s.sup.opening = none)
    (wait : s.sup.parkWait = false) (park : s.sup.parkDue = true) :
    ∃ t u, exec c s = .next t ∧ exec c { s with sup := { s.sup with sealing := none } } = .next u ∧
      (u.closingWritesEnded records → ∃ x : State, x.closeFinished u asked ∧ t.parkEntered x) ∧
      (¬u.closingWritesEnded records → t = { u with sup := s.sup }) := by
  obtain ⟨u, alone, sup, still, both⟩ := endsAWrite_sealing ends (by rw [run]; decide) due opening wait
  let v : State := { u with sup := s.sup }
  have busy : v.sup.sealing = some ⟨records, .close asked⟩ := sealing
  by_cases ended : u.closingWritesEnded records
  · have finished := finishClose_finished u asked
    rw [sup] at finished
    let x : State := State.finishClose { u with sup := { s.sup with sealing := none } } asked
    have goes : v.endSealing = x := endSealing_ends busy (by exact ended)
    have xsup : x.sup = { s.sup with sealing := none } := finishClose_sup ..
    have xmode : x.mode = .running := by
      show (State.finishClose { u with sup := { s.sup with sealing := none } } asked).mode = _
      rw [finishClose_eq, foldl_answer_eq]
      exact (stopHarmonic_mode ..).trans (still.trans run)
    have parks : x.isRunning && x.sup.sealing.isNone && x.sup.parkDue := by
      rw [State.isRunning, xmode, xsup, park]
      rfl
    obtain ⟨-, -, -, -, -, restart⟩ := enterPark_frame x
    have done : v.afterWrite = x.enterPark := by
      unfold State.afterWrite State.sealingGoesOn
      rw [busy]
      dsimp only
      rw [goes, if_pos parks, restart, xsup]
      dsimp only
      rw [due]
    exact ⟨_, u, both.trans (congrArg _ done), alone, fun _ => ⟨x, finished, enterPark_entered x⟩, fun waits => absurd ended waits⟩
  · have done : v.afterWrite = v := by
      unfold State.afterWrite State.sealingGoesOn
      rw [busy]
      dsimp only
      rw [endSealing_waits busy (by exact ended), if_neg (by rw [busy]; simp)]
      rw [show v.sup.restartDue = none from due]
    exact ⟨_, u, both.trans (congrArg _ done), alone, fun now => absurd now ended, fun _ => rfl⟩

/-! ## An acceptance that SUPPLY WARN came upon (R4, R20) -/

/-- The clearing of the store hands over system writes alone. -/
theorem Store.clear_writes (st : Store) : ∀ w ∈ st.clear.writes, w.isPage = false := by
  unfold Store.clear Store.writeCtl Store.writeEmpty Store.writeBad Store.push
  intro w hw
  simp only [List.append_assoc, List.mem_append, List.mem_filter, List.mem_singleton, List.mem_map] at hw
  rcases hw with ⟨-, hw⟩ | rfl | rfl | ⟨i, -, rfl⟩ | rfl | rfl
  · simpa using hw
  all_goals rfl

/-- What an acceptance leaves of what parking looks at. -/
theorem finishOpening_fields (s : State) (q : OpenRequest) : let t := s.finishOpening q
    t.mode = s.mode ∧ t.sup = { s.sup with opening := none } ∧ t.store.pageUnderWay = false ∧ t.store.dir = [] ∧ t.cap.slots = [] ∧
      t.ev.event = none ∧ t.har.accum = none ∧ t.hdr.number = q.number ∧ t.hdr.params = q.params ∧ t.hdr.state = .recording := by
  refine ⟨rfl, rfl, ?_, rfl, rfl, rfl, rfl, rfl, rfl, rfl⟩
  have system : ∀ w ∈ (s.finishOpening q).store.writes, w.isPage = false := fun w hw => by
    rcases List.mem_append.1 hw with hw | hw
    · exact s.store.clear_writes w hw
    · rw [List.mem_singleton.1 hw]
      rfl
  have settled : (s.finishOpening q).store.retiring = none := finishOpening_retiring s q
  unfold Store.pageUnderWay
  rw [settled]
  rcases h : (s.finishOpening q).store.writes with _ | ⟨w, ws⟩
  · rfl
  · exact system w (by rw [h]; exact List.mem_cons_self ..)

/-- Parking with an empty store and nothing open leaves the store empty. -/
theorem runPark_empty {s : State} (dir : s.store.dir = []) (slots : s.cap.slots = []) (event : s.ev.event = none)
    (accum : s.har.accum = none) : s.runPark.store.dir = [] := by
  have unchanged : s.parkSealed = s.parkBase := by
    have event' : s.parkBase.sealEvent 3 s.parkBase.clock.survey = s.parkBase :=
      (sealEvent_sealed s.parkBase 3).1 event
    have slots' : s.parkBase.cap.slots = [] := slots
    unfold State.parkSealed State.sealedState State.sealCaptures
    rw [event', slots']
    rfl
  rcases runPark_cases s with ⟨-, t⟩ | ⟨waits, -⟩
  · rw [t, finishPark_eq, stopHarmonic_none (by rw [unchanged]; exact accum)]
    exact foldl_unpins_empty _ (by rw [unchanged]; exact dir)
  · exact absurd (fun r hr => absurd hr (by rw [runningRecords_none (by simp [slots])]; simp)) waits

/-- An acceptance that waited for the page write under way is followed by parking (R20). -/
theorem endsPageWrite_opensParks {s : State} {c : Instr} {q : OpenRequest} (ends : s.endsPageWrite c) (due : s.sup.restartDue = none)
    (sealing : s.sup.sealing = none) (run : s.mode = .running) (opening : s.sup.opening = some q) (park : s.sup.parkDue = true) :
    ∃ t u, exec c s = .next t ∧ exec c { s with sup := { s.sup with parkDue := false } } = .next u ∧
      t.parksFrom { u with mode := .parked, line := { u.line with queue := [] } } ∧ u.hdr.state = .recording ∧
      t.mode = .parked ∧ t.sup.opening = none ∧ t.sup.parkDue = false ∧ t.hdr.number = q.number ∧ t.hdr.params = q.params ∧
      t.hdr.state = .recording ∧ t.hdr.checkpoint = t.clock.survey ∧ StoreWrite.header t.hdr false ∈ t.store.writes ∧
      t.store.dir = [] ∧ t.line.queue = [] ∧ t.tb.state = .stopped := by
  obtain ⟨st, ctr, cap, core⟩ := endsPageWrite_core ends (by rw [run]; decide)
  let a : State := { s with store := st, ctr := ctr, cap := cap }
  obtain ⟨mode, -, free, dir, slots, event, accum, number, params, state⟩ := finishOpening_fields a q
  let p : Supply := { s.sup with opening := none }
  let u : State := (a.finishOpening q).withSup { p with parkDue := false }
  let w : State := { u with mode := .parked, line := { u.line with queue := [] } }
  have accepts (r : Supply) (h : r.opening = some q) : State.afterPage { s with store := st, ctr := ctr, cap := cap, sup := r } =
      if r.parkDue then ((a.finishOpening q).withSup { r with opening := none }).enterPark
      else (a.finishOpening q).withSup { r with opening := none } := by
    unfold State.afterPage
    dsimp only
    rw [h]
    exact congrArg (fun x : State => if x.sup.parkDue then x.enterPark else x) (finishOpening_withSup a r q)
  have opened : exec c { s with sup := { s.sup with parkDue := false } } = .next u := by
    refine (core { s.sup with parkDue := false }).trans (congrArg Host.Outcome.next ?_)
    rw [accepts { s.sup with parkDue := false } opening]
    exact afterWrite_idle (by exact sealing) (by exact due)
  have parked : exec c s = .next w.runPark := by
    refine (core s.sup).trans (congrArg Host.Outcome.next ?_)
    rw [accepts s.sup opening, if_pos park]
    have enters : ((a.finishOpening q).withSup p).enterPark = w.runPark := by
      show (if (a.finishOpening q).store.pageUnderWay = true then _ else State.runPark _) = _
      exact if_neg (by rw [free]; decide)
    rw [enters]
    exact runPark_afterWrite rfl (by exact due)
  obtain ⟨mode', -, queue, clock, -, -, opening', due', -⟩ := runPark_frame w
  obtain ⟨-, -, -, -, -, -, hdr, written, -, tb⟩ := runPark_ended (s := w) (fun sl hsl => by
    have none' : w.cap.slots = [] := slots
    rw [none'] at hsl
    cases hsl)
  refine ⟨_, u, parked, opened, runPark_parks w, state, mode', opening', due', ?_, ?_, ?_, ?_, written,
    runPark_empty (s := w) dir slots event accum, queue, tb⟩
  · rw [hdr]
    exact number
  · rw [hdr]
    exact params
  · rw [hdr]
    exact state
  · rw [hdr, clock]
    rfl

/-- Settles O12: the entry into PARKED (`enterPark_entered`, `runPark_frame`, `runPark_ended`), and the writes with which parking
goes on. -/
theorem supplyWarnParks : Obligations.SupplyWarnParks := by
  unfold Obligations.SupplyWarnParks
  refine ⟨fun s run opening sealing => ?_, fun s run busy => ?_, fun s c due sealing ends => ⟨fun mode opening wait => ?_,
    fun q run opening park _ => ?_⟩, fun s c records ends due opening wait => ⟨fun mode sealing => ?_, fun asked run sealing park => ?_⟩⟩
  · let w : State := { s with pins := { s.pins with supplyWarn := true }, sup := { s.sup with releaseTimer := none } }
    have parks : exec .supplyWarn s = .next w.enterPark := by
      have runs : w.isRunning = true := by
        show (s.mode == .running) = true
        rw [run]
        rfl
      have calm : ¬(w.sup.opening.isSome || w.sup.sealing.isSome) = true := by
        show ¬(s.sup.opening.isSome || s.sup.sealing.isSome) = true
        rw [opening, sealing]
        decide
      exact congrArg Host.Outcome.next ((if_pos runs).trans (if_neg calm))
    obtain ⟨mode, pins, queue, clock, straps, -⟩ := enterPark_frame w
    refine ⟨_, parks, enterPark_entered w, mode, pins, queue, clock, straps, fun free => ?_⟩
    let v : State := { w with mode := .parked, line := { w.line with queue := [] }, sup := { w.sup with parkDue := false } }
    have enters : w.enterPark = v.runPark := if_neg (by rw [show w.store.pageUnderWay = false from free]; decide)
    rw [enters]
    obtain ⟨-, -, -, -, -, -, -, -, event, slots⟩ := runPark_frame v
    refine ⟨event, slots, fun idle => ?_⟩
    exact runPark_ended (s := v) idle
  · have runs : State.isRunning { s with
        pins := { s.pins with supplyWarn := true }, sup := { s.sup with releaseTimer := none } } = true := by
      show (s.mode == .running) = true
      rw [run]
      rfl
    have waits : (s.sup.opening.isSome || s.sup.sealing.isSome) = true := by
      rw [Bool.or_eq_true, Option.isSome_iff_ne_none, Option.isSome_iff_ne_none]
      exact busy
    exact congrArg Host.Outcome.next ((if_pos runs).trans (if_pos waits))
  · exact endsPageWrite_parks ends due sealing mode opening wait
  · exact endsPageWrite_opensParks ends due sealing run opening park
  · exact endsAWrite_parks ends mode sealing due opening wait
  · exact endsAWrite_closeParks ends run sealing due opening wait park

end Sys2Proof.Machine
end

section
/-!
PROOF. SURVEY_OPEN that is accepted: at once, with jobs held, and at the end of a page write under way.
-/

namespace Sys2Proof.Machine

/-! ## The stages of an acceptance (R4) -/

theorem finishOpening_eq (s : State) (r : OpenRequest) : s.finishOpening r = { s with
    sup := { s.sup with opening := none }
    store := s.store.clear.push (.header ⟨r.number, .recording, r.params, 0, 0, []⟩ false)
    hdr := ⟨r.number, .recording, r.params, 0, 0, []⟩
    ctr := {}
    notes := []
    ev := ⟨none, 1⟩
    clock := { s.clock with
      survey := min ((s.clock.now - r.frameEnd) / Config.ticksPerMs) Config.surveyMax
      phase := (s.clock.now - r.frameEnd) % Config.ticksPerMs }
    tb := Timebase.start r.params.hz s.clock.now
    lev := freshLevel s.channels
    cap := ⟨[], []⟩
    har := freshHarmonic 0
    ckpt := if s.isRunning then some (s.clock.now + ms 10000) else none
    line := (s.answer 1 0 0 r.clamped r.sender).line } := by
  have survey : (s.isRunning && (HeaderState.recording == .recording || HeaderState.recording == .rejoining)) = s.isRunning :=
    Bool.and_true _
  rw [← survey]
  rfl

theorem Store.clear_list (st : Store) : st.clear.writes = st.writes.filter (fun w => !w.isPage) ++
    [.sys (.bad false) false, .sys (.bad true) false] ++ (List.range 1024).map (fun e => .sys (.entry e none) false) ++
    [.sys (.ctl false) false, .sys (.ctl true) false] := by
  unfold Store.clear Store.writeCtl Store.writeEmpty Store.writeBad Store.push
  simp only [List.append_assoc, List.cons_append, List.nil_append]
  rfl

/-- A survey is accepted in IDLE, and in CLOSED under another number (R4). -/
theorem surveyOpen_accepts {s : State} {f : SurveyOpenFrame} (number : f.number ≠ 0)
    (state : s.hdr.state = .idle ∨ (s.hdr.state = .closed ∧ f.number.toNat ≠ s.hdr.number)) (sender : Nat) :
    s.surveyOpen sender f = s.acceptSurvey (s.openRequest sender f) := by
  have hn : f.number.toNat ≠ 0 := BitVec.toNat_ne_iff_ne.2 number
  rcases state with hs | ⟨hs, other⟩
  · simp only [State.surveyOpen, if_neg hn, hs]
  · simp only [State.surveyOpen, if_neg hn, hs, if_neg other]

/-- With no job held the acceptance begins with its second stage, or waits for the page write under way. -/
theorem acceptSurvey_idle {s : State} (jobs : s.rep.jobs = []) (r : OpenRequest) :
    s.acceptSurvey r = if s.store.pageUnderWay then { s with sup := { s.sup with opening := some r } } else s.finishOpening r := by
  have none' : s.abandonJobs = s := by
    unfold State.abandonJobs
    rw [jobs]
    rfl
  unfold State.acceptSurvey
  rw [none']

/-! ## The jobs held (R4 stage 1, R164) -/

/-- A job at another station's printer is abandoned: its DROP, when it is past ASKED, goes out first. -/
theorem abandonForSurvey_station {j : Job} {n : Nat} (h : j.printer = .station n) (s : State) :
    s.abandonForSurvey j = (if j.state = .asked then s else s.send (.drop j.number) n).endJob j .abandoned := by
  unfold State.abandonForSurvey
  rw [abandon_station h]
  split <;> rfl

/-- The jobs at other stations' printers, abandoned one after the other: what each hands to the line, and what else changes. -/
theorem foldl_abandonForSurvey {drop : State → Job → State}
    (drops : ∀ x j n, j.printer = .station n → drop x j = if j.state = .asked then x else x.send (.drop j.number) n)
    (l : List Job) {s u : State} (line : u.line = s.line) (clock : u.clock = s.clock) (away : ∀ j ∈ l, j.printer ≠ .own) :
    let t := l.foldl State.abandonForSurvey u
    t.line = (l.foldl drop s).line ∧ t.clock = u.clock ∧ (l.foldl drop s).clock = s.clock ∧ t.prn = u.prn ∧
      t.rep = { u.rep with jobs := u.rep.jobs.filter fun x => !(l.map (·.entry)).contains x.entry } ∧
      t.store.writes = u.store.writes ∧ t.store.retiring = u.store.retiring := by
  induction l generalizing s u with
  | nil =>
    have all : (u.rep.jobs.filter fun x => !(([] : List Job).map (·.entry)).contains x.entry) = u.rep.jobs :=
      List.filter_eq_self.2 fun _ _ => rfl
    dsimp only
    rw [all]
    exact ⟨line, rfl, rfl, rfl, rfl, rfl, rfl⟩
  | cons j l ih =>
    obtain ⟨here, rest⟩ := List.forall_mem_cons.1 away
    obtain ⟨n, printer⟩ : ∃ n, j.printer = .station n := by
      rcases h : j.printer with _ | n
      · exact absurd h here
      · exact ⟨n, rfl⟩
    have one : u.abandonForSurvey j = State.endJob (if j.state = .asked then u else u.send (.drop j.number) n) j .abandoned :=
      abandonForSurvey_station printer u
    have first' : (u.abandonForSurvey j).line = (drop s j).line ∧ (u.abandonForSurvey j).clock = (drop s j).clock ∧
        (u.abandonForSurvey j).clock = u.clock ∧ (drop s j).clock = s.clock ∧ (u.abandonForSurvey j).prn = u.prn ∧
        (u.abandonForSurvey j).rep = { u.rep with jobs := u.rep.jobs.filter fun x => x.entry != j.entry } ∧
        (u.abandonForSurvey j).store.writes = u.store.writes ∧ (u.abandonForSurvey j).store.retiring = u.store.retiring := by
      rw [one, drops s j n printer, endJob_undone (by decide), foldl_unpin_eq]
      by_cases asked : j.state = .asked
      · rw [if_pos asked, if_pos asked]
        exact ⟨line, clock, rfl, rfl, rfl, rfl, rfl, rfl⟩
      · rw [if_neg asked, if_neg asked]
        refine ⟨?_, clock, rfl, rfl, rfl, rfl, rfl, rfl⟩
        show u.line.handOver u.clock.now (.drop j.number) n = s.line.handOver s.clock.now (.drop j.number) n
        rw [line, clock]
    obtain ⟨line', clock', clocku, clocks, prn', rep', writes', retiring'⟩ := first'
    obtain ⟨line'', clock'', drop'', prn'', rep'', writes'', retiring''⟩ := ih line' clock' rest
    refine ⟨line'', clock''.trans clocku, drop''.trans clocks, prn''.trans prn', ?_, writes''.trans writes',
      retiring''.trans retiring'⟩
    have jobs : ((u.rep.jobs.filter fun x => x.entry != j.entry).filter fun x => !(l.map (·.entry)).contains x.entry) =
        u.rep.jobs.filter fun x => !((j :: l).map (·.entry)).contains x.entry := by
      rw [List.filter_filter]
      refine List.filter_congr fun x _ => ?_
      rw [List.map_cons, List.contains_cons, Bool.not_or, Bool.and_comm]
      rfl
    rw [List.foldl_cons, rep'', rep', ← jobs]

theorem pageUnderWay_congr {st u : Store} (writes : u.writes = st.writes) (retiring : u.retiring = st.retiring) :
    u.pageUnderWay = st.pageUnderWay := by
  unfold Store.pageUnderWay
  rw [writes, retiring]

/-- An acceptance that waited for the page write under way is completed at its end (R4). -/
theorem endsPageWrite_opens {s : State} {c : Instr} {q : OpenRequest} (ends : s.endsPageWrite c) (run : s.mode = .running)
    (opening : s.sup.opening = some q) (park : s.sup.parkDue = false) (due : s.sup.restartDue = none)
    (sealing : s.sup.sealing = none) : ∃ st ctr cap,
      exec c s = .next (State.finishOpening { s with store := st, ctr := ctr, cap := cap } q) := by
  obtain ⟨st, ctr, cap, core⟩ := endsPageWrite_core ends (by rw [run]; decide)
  refine ⟨st, ctr, cap, (core s.sup).trans (congrArg Host.Outcome.next ?_)⟩
  have opens : State.afterPage { s with store := st, ctr := ctr, cap := cap } =
      State.finishOpening { s with store := st, ctr := ctr, cap := cap } q := by
    unfold State.afterPage
    dsimp only
    rw [opening]
    exact if_neg (by rw [show (State.finishOpening { s with store := st, ctr := ctr, cap := cap } q).sup.parkDue = false from park]; decide)
  refine (congrArg State.afterWrite opens).trans (afterWrite_idle ?_ ?_)
  · exact sealing
  · exact due

/-- Settles O15: the acceptance at once (`acceptSurvey_idle`, `finishOpening_eq`), with jobs held (`foldl_abandonForSurvey`), and at
the end of a page write (`endsPageWrite_opens`). -/
theorem surveyOpenAccepted : Obligations.SurveyOpenAccepted := by
  unfold Obligations.SurveyOpenAccepted
  refine ⟨fun rx f s takes whole number state jobs free => ?_, fun rx f s takes whole number state => ⟨fun free away => ?_,
    fun busy jobs => ?_⟩, fun s q c run opening park due sealing ends => ?_⟩
  · have accepts := surveyOpen_accepts (s := s.heard rx) number state rx.sender.toNat
    have running : (s.heard rx).isRunning = true := by
      show (s.mode == .running) = true
      rw [takes.1]
      rfl
    rw [acceptSurvey_idle (by exact jobs), if_neg (by rw [show (s.heard rx).store.pageUnderWay = false from free]; decide),
      finishOpening_eq, running] at accepts
    refine ⟨_, (exec_surveyOpen_takes takes whole).trans (congrArg _ accepts), rfl, ?_, rfl, rfl, rfl, rfl, rfl, rfl, rfl, rfl, rfl,
      rfl, ?_, rfl, rfl, rfl, rfl, rfl, rfl, rfl⟩
    · show (⟨s.clock.now, min ((s.clock.now - s.clock.now) / Config.ticksPerMs) Config.surveyMax,
        (s.clock.now - s.clock.now) % Config.ticksPerMs⟩ : Clock) = _
      rw [Nat.sub_self]
      rfl
    · refine (congrArg (· ++ _) (s.store.clear_list)).trans ?_
      rw [List.append_assoc]
      rfl
  · intro dropTo
    have drops : ∀ (x : State) (j : Job) (n : Nat), j.printer = .station n →
        dropTo x j = if j.state = .asked then x else x.send (.drop j.number) n := fun x j n h => by
      show (match j.printer with
        | .station n => if j.state = JobState.asked then x else x.send (.drop j.number) n
        | .own => x) = _
      rw [h]
    obtain ⟨line, clock, clockd, prn, rep, writes, retiring⟩ :=
      foldl_abandonForSurvey drops s.rep.jobs (s := s.heard rx) rfl rfl away
    let a : State := s.rep.jobs.foldl State.abandonForSurvey (s.heard rx)
    have underWay : a.store.pageUnderWay = false := (pageUnderWay_congr writes retiring).trans free
    have accepts : (s.heard rx).surveyOpen rx.sender.toNat f = a.finishOpening ((s.heard rx).openRequest rx.sender.toNat f) :=
      (surveyOpen_accepts (s := s.heard rx) number state rx.sender.toNat).trans (if_neg (by
        show ¬a.store.pageUnderWay = true
        rw [underWay]
        decide))
    have none' : (s.rep.jobs.filter fun x => !(s.rep.jobs.map (·.entry)).contains x.entry) = [] := by
      refine List.filter_eq_nil_iff.2 fun x hx => ?_
      simpa using ⟨x, hx, rfl⟩
    rw [finishOpening_eq] at accepts
    refine ⟨_, (exec_surveyOpen_takes takes whole).trans (congrArg _ accepts), rep.trans ?_, rfl, rfl, rfl, prn, ?_⟩
    · exact congrArg (fun jobs => ({ s.rep with jobs := jobs } : Report)) none'
    · show a.line.handOver a.clock.now _ _ = State.line (State.answer _ ..)
      rw [show a.line = _ from line, show a.clock = _ from clock.trans clockd.symm]
      rfl
  · have accepts := surveyOpen_accepts (s := s.heard rx) number state rx.sender.toNat
    rw [acceptSurvey_idle (by exact jobs), if_pos (by exact busy)] at accepts
    exact (exec_surveyOpen_takes takes whole).trans (congrArg _ accepts)
  · obtain ⟨st, ctr, cap, opens⟩ := endsPageWrite_opens ends run opening park due sealing
    rw [finishOpening_eq] at opens
    exact ⟨_, opens, rfl, rfl, rfl, rfl, rfl, rfl, rfl, rfl, rfl, rfl, rfl, rfl⟩

end Sys2Proof.Machine
end

section
/-!
PROOF. BEACON: the roster, the end of a rejoining, and the choice of the timebase.
-/

namespace Sys2Proof.Machine

/-! ## The roster (R193) -/

theorem find?_insertBy_new {α : Type} {key : α → Nat} {p : α → Bool} {a : α} (ha : p a = true) {l : List α}
    (h : ∀ b ∈ l, p b = false) : (insertBy key a l).find? p = some a := by
  induction l with
  | nil => exact List.find?_cons_of_pos ha
  | cons b l ih =>
    obtain ⟨here, rest⟩ := List.forall_mem_cons.1 h
    unfold insertBy
    split
    · exact List.find?_cons_of_pos ha
    · rw [List.find?_cons_of_neg (by rw [here]; decide), ih rest]

theorem find?_insertBy_other {α : Type} {key : α → Nat} {p : α → Bool} {a : α} (ha : p a = false) (l : List α) :
    (insertBy key a l).find? p = l.find? p := by
  induction l with
  | nil => exact List.find?_cons_of_neg (by rw [ha]; decide)
  | cons b l ih =>
    unfold insertBy
    split
    · exact List.find?_cons_of_neg (by rw [ha]; decide)
    · rcases h : p b with _ | _
      · rw [List.find?_cons_of_neg (by rw [h]; decide), List.find?_cons_of_neg (by rw [h]; decide), ih]
      · rw [List.find?_cons_of_pos h, List.find?_cons_of_pos h]

/-- A beacon stands in the roster entry of its sender. -/
theorem entryOf_refresh_same (l : Line) (n now : Nat) (b : BeaconInfo) :
    (l.refresh n now (some b)).entryOf n = some ⟨n, now, some now, some b⟩ := by
  have station : ((l.entryOf n).getD ⟨n, now, none, none⟩).station = n := by
    rcases h : l.entryOf n with _ | e
    · rfl
    · simpa using List.find?_some h
  have entry : ({ (l.entryOf n).getD ⟨n, now, none, none⟩ with lastFrame := now, lastBeacon := some now, beacon := some b } :
      RosterEntry) = ⟨n, now, some now, some b⟩ :=
    congrArg (fun m => (⟨m, now, some now, some b⟩ : RosterEntry)) station
  have others : ∀ e ∈ l.roster.filter fun x => x.station != n, (e.station == n) = false := fun e he => by
    simpa using (List.mem_filter.1 he).2
  exact (find?_insertBy_new (key := RosterEntry.station) (p := fun e => e.station == n) (by simpa using station) others).trans
    (congrArg some entry)

/-- The entries of other stations stay. -/
theorem entryOf_refresh_other (l : Line) {n m : Nat} (h : m ≠ n) (now : Nat) (b : BeaconInfo) :
    (l.refresh n now (some b)).entryOf m = l.entryOf m := by
  have station : ((l.entryOf n).getD ⟨n, now, none, none⟩).station = n := by
    rcases h : l.entryOf n with _ | e
    · rfl
    · simpa using List.find?_some h
  refine (find?_insertBy_other (key := RosterEntry.station) (p := fun e => e.station == m) ?_ _).trans ?_
  · show (((l.entryOf n).getD ⟨n, now, none, none⟩).station == m) = false
    rw [station]
    simpa using h.symm
  · rw [List.find?_filter]
    refine congrArg (fun p => l.roster.find? p) (funext fun e => ?_)
    by_cases he : e.station = m
    · simp [he, h]
    · simp [he]

/-! ## The choice of the timebase (R37 to R39) -/

/-- The timebase makes its choice in FREE and PEER, while measurement runs. -/
def State.chooses (u : State) : State :=
  if u.inSurvey && (u.tb.state == .free || u.tb.state == .peer) then u.choosePeer else u

theorem chooses_eq {h u : State} (line : u.line = h.line) (now : u.clock.now = h.clock.now)
    (params : u.hdr.params = h.hdr.params) (tb : u.inSurvey = true → u.tb = h.tb) :
    u.chooses = { u with
      tb := if u.inSurvey = true ∧ (h.tb.state = .free ∨ h.tb.state = .peer) then h.choosePeer.tb else u.tb } := by
  unfold State.chooses
  by_cases survey : u.inSurvey = true
  · have same : u.choosePeer.tb = h.choosePeer.tb := by
      unfold State.choosePeer State.peerChoice
      rw [tb survey, line, now, params]
    rw [survey, Bool.true_and, tb survey]
    by_cases seeks : h.tb.state = .free ∨ h.tb.state = .peer
    · rw [if_pos (by simpa using seeks), if_pos ⟨rfl, seeks⟩, ← same]
      rfl
    · rw [if_neg (by simpa using seeks), if_neg (fun hh => seeks hh.2), ← tb survey]
  · rw [if_neg (fun hh => survey (Bool.and_eq_true_iff.1 hh).1), if_neg (fun hh => survey hh.1)]

/-- A close that begins leaves the timebase until it stops, and the parameters in force. -/
theorem closeSurvey_tb {s : State} (h : s.sup.sealing = none) (asked : List Nat) :
    ((s.closeSurvey asked).inSurvey = true → (s.closeSurvey asked).tb = s.tb) ∧ (s.closeSurvey asked).hdr.params = s.hdr.params := by
  obtain ⟨-, -, -, -, -, -, -, -, hdr, tb, -⟩ := sealedState_frame s 2 .cut
  have params : (s.sealedState 2 .cut).hdr.params = s.hdr.params := by rw [hdr]
  rcases closeSurvey_cases h asked with ⟨-, t⟩ | ⟨-, t⟩
  · rw [t, finishClose_eq, foldl_answer_eq]
    refine ⟨fun survey => ?_, params⟩
    rw [inSurvey_closed rfl] at survey
    cases survey
  · rw [t]
    exact ⟨fun _ => tb, params⟩

/-! ## The end of a rejoining (R18, R19) -/

/-- The state that has adopted survey time `t`, before the limit is tested (R18). -/
def State.adopted (s : State) (t : Nat) : State :=
  let hdr : Header := { s.hdr with state := .recording, checkpoint := t }
  { s with
    hdr := hdr
    notes := s.notes.map (NoteEntry.expireAt t)
    ckpt := some (s.clock.now + ms 10000)
    clock := { s.clock with survey := t, phase := 0 }
    store := { s.store with writes := s.store.writes ++ [.header hdr false] } }

section
variable {s : State}

theorem adopted_inSurvey (run : s.mode = .running) (t : Nat) : (s.adopted t).inSurvey = true := by
  show (s.mode == .running && _) = true
  rw [run]
  rfl

theorem adopt_eq (run : s.mode = .running) (t : Nat) : s.adopt t = (s.adopted t).limitTest := by
  have running : (s.mode == .running && (HeaderState.recording == .recording || HeaderState.recording == .rejoining)) = true := by
    rw [run]
    rfl
  have ckpt : (if (s.mode == .running && (HeaderState.recording == .recording || HeaderState.recording == .rejoining)) = true
      then some (s.clock.now + ms 10000) else none) = some (s.clock.now + ms 10000) := if_pos running
  unfold State.adopted
  rw [← ckpt]
  rfl

/-- A time below the limit, or a close under way: survey control only adopts it. -/
theorem adopt_stays (run : s.mode = .running) {t : Nat} (h : t < 4000000000 ∨ s.sup.sealing ≠ none) : s.adopt t = s.adopted t := by
  rw [adopt_eq run, State.limitTest, adopted_inSurvey run, Bool.true_and]
  by_cases below : t < 4000000000
  · exact if_neg fun reached => Nat.not_le.2 below (of_decide_eq_true (p := 4000000000 ≤ t) reached)
  · rw [closeSurvey_unasked (s := s.adopted t) (h.resolve_left below), ite_self]

/-- A time at the limit closes the survey. -/
theorem adopt_closes (run : s.mode = .running) {t : Nat} (h : 4000000000 ≤ t) : s.adopt t = (s.adopted t).closeSurvey [] := by
  rw [adopt_eq run, State.limitTest, adopted_inSurvey run, Bool.true_and]
  exact if_pos (decide_eq_true (p := 4000000000 ≤ t) h)

theorem rejoin_adopts {b : BeaconInfo} (h : s.hdr.state = .rejoining) (number : b.number = s.hdr.number) (state : b.state = 1) :
    s.rejoin b = s.adopt b.time := by
  unfold State.rejoin
  rw [if_pos ⟨h, number⟩]
  exact if_pos state

theorem rejoin_closes {b : BeaconInfo} (h : s.hdr.state = .rejoining) (number : b.number = s.hdr.number) (state : b.state = 3) :
    s.rejoin b = s.closeSurvey [] := by
  unfold State.rejoin
  rw [if_pos ⟨h, number⟩, if_neg (by rw [state]; decide)]
  exact if_pos state

theorem rejoin_passes {b : BeaconInfo}
    (h : s.hdr.state ≠ .rejoining ∨ b.number ≠ s.hdr.number ∨ (b.state ≠ 1 ∧ (b.state ≠ 3 ∨ s.sup.sealing ≠ none))) :
    s.rejoin b = s := by
  unfold State.rejoin
  by_cases here : s.hdr.state = .rejoining ∧ b.number = s.hdr.number
  · obtain ⟨first, third⟩ := (h.resolve_left (not_not.2 here.1)).resolve_left (not_not.2 here.2)
    rw [if_pos here]
    refine (if_neg first).trans ?_
    by_cases closed : b.state = 3
    · exact (if_pos closed).trans (closeSurvey_unasked (third.resolve_left (not_not.2 closed)))
    · exact if_neg closed
  · exact if_neg here

end

/-- Settles O57: the roster (`entryOf_refresh_same`), what survey control makes of the beacon (`adopt_stays`, `adopt_closes`,
`rejoin_closes`, `rejoin_passes`), and the choice after it (`chooses_eq`). -/
theorem beaconsEndTheRejoining : Obligations.BeaconsEndTheRejoining := by
  unfold Obligations.BeaconsEndTheRejoining
  intro rx f s takes heard choice follows
  have chosen : choice = heard.choosePeer.tb := (congrArg State.tb (choosePeer_eq (s := s) (q := heard) rfl rfl)).symm
  have run {u : State} (h : heard.rejoin (infoOf f) = u) : exec (.beacon rx f) s = .next u.chooses :=
    congrArg Host.Outcome.next ((receive_takes takes (some (infoOf f)) fun s => s.takeBeacon (infoOf f)).trans
      (congrArg State.chooses h))
  have follow {u : State} (line : u.line = heard.line) (now : u.clock.now = s.clock.now) (params : u.hdr.params = s.hdr.params)
      (tb : u.inSurvey = true → u.tb = s.tb) : u.chooses = follows u := by
    refine (chooses_eq (h := heard) line now params tb).trans ?_
    exact congrArg (fun c => ({ u with
      tb := if u.inSurvey = true ∧ (s.tb.state = .free ∨ s.tb.state = .peer) then c else u.tb } : State)) chosen.symm
  have code (n : BitVec 8) : (infoOf f).state = n.toNat ↔ f.state = n := BitVec.toNat_inj
  have mode : heard.mode = .running := takes.1
  refine ⟨entryOf_refresh_same .., fun n hn => entryOf_refresh_other _ hn .., fun rejoining number => ⟨fun state early => ?_,
    fun state late sealing => ?_, fun state sealing => ?_⟩, fun passes => ?_⟩
  · have goes := (rejoin_adopts (s := heard) rejoining number ((code 1).2 state)).trans (adopt_stays mode early)
    have chose := follow (u := heard.adopted f.time.toNat) rfl rfl rfl fun _ => rfl
    have survey : (heard.adopted f.time.toNat).inSurvey = true := adopted_inSurvey mode _
    refine ⟨_, (run goes).trans (congrArg _ chose), rfl, rfl, rfl, rfl, rfl, rfl, rfl, rfl, rfl, rfl, rfl, rfl, rfl, rfl, ?_⟩
    show (if (heard.adopted f.time.toNat).inSurvey = true ∧ (s.tb.state = .free ∨ s.tb.state = .peer) then choice else s.tb) = _
    rw [survey]
    simp only [true_and]
  · intro hdr adopted
    have goes : heard.rejoin (infoOf f) = adopted.closeSurvey [] :=
      (rejoin_adopts (s := heard) rejoining number ((code 1).2 state)).trans (adopt_closes mode late)
    obtain ⟨event, slots, rep, -, -, clock, -, -, -, -, line⟩ := closeSurvey_frame (s := adopted) sealing []
    obtain ⟨tb, params⟩ := closeSurvey_tb (s := adopted) sealing []
    have chose := follow (u := adopted.closeSurvey []) (line rfl) (by rw [clock]) params tb
    refine ⟨adopted.closeSurvey [], _, run goes, closeSurvey_closes (s := adopted) sealing [], chose, ?_⟩
    rw [chose]
    refine ⟨congrArg Clock.survey clock, event, slots, line rfl, rep, fun idle => ?_⟩
    obtain ⟨-, hdr', -, -, accum, tb', -, ckpt, -⟩ := closeSurvey_ended (s := adopted) sealing idle []
    have over' : (adopted.closeSurvey []).inSurvey = false := inSurvey_closed (by rw [hdr']; rfl)
    refine ⟨hdr', ?_, accum, ckpt⟩
    exact (if_neg (by rw [over']; simp)).trans tb'
  · have goes := rejoin_closes (s := heard) rejoining number ((code 3).2 state)
    obtain ⟨event, slots, rep, -, -, clock, -, -, -, -, line⟩ := closeSurvey_frame (s := heard) sealing []
    obtain ⟨tb, params⟩ := closeSurvey_tb (s := heard) sealing []
    have chose := follow (u := heard.closeSurvey []) (line rfl) (by rw [clock]; rfl) params tb
    refine ⟨heard.closeSurvey [], _, run goes, closeSurvey_closes (s := heard) sealing [], chose, ?_⟩
    rw [chose]
    refine ⟨clock, event, slots, line rfl, rep, fun idle => ?_⟩
    obtain ⟨-, hdr', -, -, accum, tb', -, ckpt, -⟩ := closeSurvey_ended (s := heard) sealing idle []
    have over' : (heard.closeSurvey []).inSurvey = false := inSurvey_closed (by rw [hdr']; rfl)
    refine ⟨hdr', ?_, accum, ckpt⟩
    exact (if_neg (by rw [over']; simp)).trans tb'
  · have goes : heard.rejoin (infoOf f) = heard := rejoin_passes (passes.imp id (Or.imp id fun ⟨first', third⟩ =>
      ⟨fun h => first' ((code 1).1 h), third.imp (fun h h' => h ((code 3).1 h')) id⟩))
    rw [run goes, follow (u := heard) rfl rfl rfl fun _ => rfl]

end Sys2Proof.Machine
end

section
/-!
PROOF. What the harmonic analyser makes of its blocks: the instants and verdicts they take, and how a settling block is counted.
-/

namespace Sys2Proof.Machine

/-! ## A block and the verdict on its cycle (R102, R108) -/

section
variable (b : Block)

@[simp] theorem Block.hear_nothing : b.hear .nothing = b := rfl

theorem Block.hear_judged {b : Block} (h : b.judged = true) (f : TbEffect) : b.hear f = b := by
  rcases f with _ | r | _
  · rfl
  · exact if_pos h
  · exact if_pos h

/-- What a verdict makes of a block that waits for one. -/
theorem Block.hear_waiting {b : Block} (h : b.judged = false) (f : TbEffect) : b.hear f = { b with
    tbMark := b.tbMark || decide (f = .judged false ∨ f = .unjudged), judged := decide (f ≠ .nothing) } := by
  have not_judged : ¬b.judged = true := by rw [h]; decide
  rcases f with _ | r | _
  · obtain ⟨taken, sums, first', firstUnsure, last', lastUnsure, tbMark, evMark, interval, judged, results⟩ := b
    obtain rfl : judged = false := h
    simp [Block.hear]
  · refine (if_neg not_judged).trans ?_
    cases r <;> simp
  · refine (if_neg not_judged).trans ?_
    simp

/-- A verdict leaves everything else of a block as it is. -/
theorem Block.hear_frame (f : TbEffect) : ∃ m j, b.hear f = { b with tbMark := m, judged := j } := by
  by_cases h : b.judged = true
  · exact ⟨b.tbMark, b.judged, Block.hear_judged h f⟩
  · exact ⟨_, _, Block.hear_waiting (by simpa using h) f⟩

end

/-! ## A settling block is counted (R110, R112) -/

section
variable {a : Accum} {b : Block}

theorem Accum.count_timebase (h : b.tbMark = true) : a.count b = { a with
    stop := b.last, stopUnsure := b.lastUnsure, xT := a.xT + 1 } := if_pos h

theorem Accum.count_event (h : b.tbMark = false) (event : b.evMark = true) : a.count b = { a with
    stop := b.last, stopUnsure := b.lastUnsure, xE := a.xE + 1 } :=
  (if_neg (by rw [h]; decide)).trans (if_pos event)

theorem Accum.count_contributes (h : b.tbMark = false) (event : b.evMark = false) : a.count b = { a with
    stop := b.last, stopUnsure := b.lastUnsure, m := a.m + 1
    sums := List.zipWith (fun s r => List.zipWith (fun x y => x + y * y) s r.amps) a.sums (b.results.getD [])
    maxima := List.zipWith maxRatios a.maxima (b.results.getD []) } :=
  (if_neg (by rw [h]; decide)).trans (if_neg (by rw [event]; decide))

theorem Accum.count_counted : (a.count b).counted = a.counted + 1 := by
  rcases h : b.tbMark with _ | _
  · rcases he : b.evMark with _ | _
    · rw [Accum.count_contributes h he]
      simp only [Accum.counted]
      omega
    · rw [Accum.count_event h he]
      simp only [Accum.counted]
      omega
  · rw [Accum.count_timebase h]
    simp only [Accum.counted]
    omega

/-- The span of an interval after a block: from its own start to the block's last instant. -/
theorem Accum.count_span : (a.count b).stop = b.last ∧ (a.count b).interval = a.interval ∧ (a.count b).start = a.start := by
  rcases h : b.tbMark with _ | _
  · rcases he : b.evMark with _ | _
    · rw [Accum.count_contributes h he]
      exact ⟨rfl, rfl, rfl⟩
    · rw [Accum.count_event h he]
      exact ⟨rfl, rfl, rfl⟩
  · rw [Accum.count_timebase h]
    exact ⟨rfl, rfl, rfl⟩

/-- The counter of the cause for which a block is excluded, if any (R110). -/
def Counters.settledBy (c : Counters) (b : Block) : Counters :=
  if b.tbMark then { c with blocksTimebase := satAdd c.blocksTimebase 1 }
  else if b.evMark then { c with blocksEvent := satAdd c.blocksEvent 1 } else c

theorem Counters.settledBy_timebase {c : Counters} (h : b.tbMark = true) :
    c.settledBy b = { c with blocksTimebase := satAdd c.blocksTimebase 1 } := if_pos h

theorem Counters.settledBy_event {c : Counters} (h : b.tbMark = false) (event : b.evMark = true) :
    c.settledBy b = { c with blocksEvent := satAdd c.blocksEvent 1 } := (if_neg (by rw [h]; decide)).trans (if_pos event)

theorem Counters.settledBy_none {c : Counters} (h : b.tbMark = false) (event : b.evMark = false) : c.settledBy b = c :=
  (if_neg (by rw [h]; decide)).trans (if_neg (by rw [event]; decide))

theorem Counters.settledBy_sealed (c : Counters) (b : Block) :
    (c.settledBy b).intervalsSealed = c.intervalsSealed ∧ (c.settledBy b).intervalsLost = c.intervalsLost := by
  unfold Counters.settledBy
  split
  · exact ⟨rfl, rfl⟩
  · split <;> exact ⟨rfl, rfl⟩

end

/-- The accumulators that a settling block is counted in (R112). -/
def State.intervalOf (s : State) (b : Block) : Accum := s.har.accum.getD (Accum.begin b)

/-- The state in which a settling block has been counted. -/
def State.counts (s : State) (b : Block) : State := { s with
  har := { s.har with settling := none, accum := some ((s.intervalOf b).count b) }, ctr := s.ctr.settledBy b }

section
variable {s : State} {b : Block}

theorem settle_goesOn (h : (s.intervalOf b).counted + 1 < s.hdr.params.k) : s.settle b = s.counts b := by
  refine if_neg (Nat.not_le.2 ?_)
  show ((s.intervalOf b).count b).counted < s.hdr.params.k
  rwa [Accum.count_counted]

theorem settle_seals (h : s.hdr.params.k ≤ (s.intervalOf b).counted + 1) : s.settle b = (s.counts b).sealInterval false := by
  refine if_pos ?_
  show s.hdr.params.k ≤ ((s.intervalOf b).count b).counted
  rwa [Accum.count_counted]

/-- The K-th block of an interval: the interval is counted as sealed, and its record is asked for (R113 to R115). -/
theorem settle_sealed (h : s.hdr.params.k ≤ (s.intervalOf b).counted + 1) :
    let made := s.create ⟨.interval, none, none, 1⟩
    (s.settle b).har = { s.har with settling := none, accum := none } ∧
      (s.settle b).ctr.intervalsSealed = satAdd s.ctr.intervalsSealed 1 ∧
      (∀ n, made.2 = some n → (s.settle b).ctr.intervalsLost = s.ctr.intervalsLost ∧ (s.settle b).store = { made.1.store with
        writes := made.1.store.writes ++ [.page n 0 ((s.counts b).intervalPage ((s.intervalOf b).count b) false) .seal] }) ∧
      (made.2 = none → (s.settle b).store = made.1.store ∧ (s.settle b).ctr.intervalsLost = satAdd s.ctr.intervalsLost 1) := by
  intro made
  obtain ⟨sealedCount, lost⟩ := s.ctr.settledBy_sealed b
  obtain ⟨granted, refused⟩ := sealInterval_some (s := s.counts b) rfl false
  have counted : satAdd (s.counts b).ctr.intervalsSealed 1 = satAdd s.ctr.intervalsSealed 1 := congrArg (satAdd · 1) sealedCount
  have lost' : satAdd (s.counts b).ctr.intervalsLost 1 = satAdd s.ctr.intervalsLost 1 := congrArg (satAdd · 1) lost
  rw [settle_seals h]
  rcases hn : made.2 with _ | n
  · rw [refused hn]
    exact ⟨rfl, counted, nofun, fun _ => ⟨rfl, lost'⟩⟩
  · rw [granted n hn]
    refine ⟨rfl, counted, fun m hm => ?_, nofun⟩
    obtain rfl := Option.some.inj hm
    exact ⟨lost, rfl⟩

theorem settle_har (s : State) (b : Block) :
    (s.settle b).har.settling = none ∧ (s.settle b).har.current = s.har.current ∧
      (s.settle b).har.intervalCounter = s.har.intervalCounter := by
  by_cases h : (s.intervalOf b).counted + 1 < s.hdr.params.k
  · rw [settle_goesOn h]
    exact ⟨rfl, rfl, rfl⟩
  · rw [(settle_sealed (Nat.not_lt.1 h)).1]
    exact ⟨rfl, rfl, rfl⟩

theorem trySettle_none (h : s.har.settling = none) : s.trySettle = s := by
  unfold State.trySettle
  rw [h]

theorem trySettle_waits (h : s.har.settling = some b) (wait : b.results = none ∨ b.judged = false) : s.trySettle = s := by
  unfold State.trySettle
  rw [h]
  refine if_neg fun hh => ?_
  obtain ⟨results, judged⟩ := Bool.and_eq_true_iff.1 hh
  rcases wait with wait | wait
  · rw [wait] at results
    cases results
  · rw [wait] at judged
    cases judged

theorem trySettle_settles (h : s.har.settling = some b) (results : b.results ≠ none) (judged : b.judged = true) :
    s.trySettle = s.settle b := by
  unfold State.trySettle
  rw [h]
  refine if_pos ?_
  rw [judged, Bool.and_true]
  exact Option.isSome_iff_ne_none.2 results

/-- The current block and the interval counter stay. -/
theorem trySettle_current (s : State) : s.trySettle.har.current = s.har.current ∧
    s.trySettle.har.intervalCounter = s.har.intervalCounter := by
  rcases h : s.har.settling with _ | b
  · rw [trySettle_none h]
    exact ⟨rfl, rfl⟩
  · by_cases ready : b.results ≠ none ∧ b.judged = true
    · rw [trySettle_settles h ready.1 ready.2]
      exact (settle_har s b).2
    · rw [trySettle_waits h (by simpa [Classical.or_iff_not_imp_left] using ready)]
      exact ⟨rfl, rfl⟩

/-- A verdict reaches the settling block: it waits on without its results or without a verdict, and is counted with both. -/
theorem trySettle_heard {w : Block} {f : TbEffect} (h : s.har.settling = some (w.hear f)) (wait : w.judged = false) :
    let bad := f = .judged false ∨ f = .unjudged
    (w.results = none ∨ f = .nothing → s.trySettle = s) ∧
    (w.results ≠ none → f ≠ .nothing →
      let a := s.har.accum.getD (Accum.begin w)
      s.trySettle.har.settling = none ∧
        (a.counted + 1 < s.hdr.params.k → ∃ a', s.trySettle.har.accum = some a' ∧ a'.counted = a.counted + 1 ∧
          (w.tbMark = true ∨ bad → a'.xT = a.xT + 1 ∧ a'.sums = a.sums ∧
            s.trySettle.ctr = { s.ctr with blocksTimebase := satAdd s.ctr.blocksTimebase 1 }) ∧
          (w.tbMark = false → ¬bad → w.evMark = true → a'.xE = a.xE + 1 ∧ a'.sums = a.sums ∧
            s.trySettle.ctr = { s.ctr with blocksEvent := satAdd s.ctr.blocksEvent 1 }) ∧
          (w.tbMark = false → ¬bad → w.evMark = false → a'.m = a.m + 1 ∧ s.trySettle.ctr = s.ctr)) ∧
        (s.hdr.params.k ≤ a.counted + 1 → s.trySettle.har.accum = none ∧
          s.trySettle.ctr.intervalsSealed = satAdd s.ctr.intervalsSealed 1)) := by
  have heard := Block.hear_waiting wait f
  refine ⟨fun early => trySettle_waits h ?_, fun results verdict => ?_⟩
  · rw [heard]
    exact early.imp id fun none' => by simp [none']
  · have settles := trySettle_settles h (by rw [heard]; exact results) (by rw [heard]; simpa using verdict)
    have same : s.intervalOf (w.hear f) = s.har.accum.getD (Accum.begin w) := by rw [heard]; rfl
    rw [settles]
    refine ⟨(settle_har ..).1, fun below => ?_, fun last' => ?_⟩
    · rw [settle_goesOn (by rw [same]; exact below)]
      refine ⟨_, rfl, by rw [Accum.count_counted, same], fun marked => ?_, fun clear good event => ?_, fun clear good quiet => ?_⟩
      · have mark : (w.hear f).tbMark = true := by
          rw [heard]
          simpa using marked
        rw [Accum.count_timebase mark, same]
        exact ⟨rfl, rfl, Counters.settledBy_timebase mark⟩
      · have mark : (w.hear f).tbMark = false := by
          rw [heard]
          simpa [clear] using good
        rw [Accum.count_event mark (by rw [heard]; exact event), same]
        exact ⟨rfl, rfl, Counters.settledBy_event mark (by rw [heard]; exact event)⟩
      · have mark : (w.hear f).tbMark = false := by
          rw [heard]
          simpa [clear] using good
        rw [Accum.count_contributes mark (by rw [heard]; exact quiet), same]
        exact ⟨rfl, Counters.settledBy_none mark (by rw [heard]; exact quiet)⟩
    · obtain ⟨har, sealedCount, -⟩ := settle_sealed (s := s) (b := w.hear f) (by rw [same]; exact last')
      rw [har]
      exact ⟨rfl, sealedCount⟩

end

end Sys2Proof.Machine
end

section
/-!
PROOF. The instant up to its boundary, said once, and the blocks that it and the other commands of the analyser fill and settle.
-/

namespace Sys2Proof.Machine

/-! ## The instant up to its boundary (R25 to R28, R43, R76, R83, R104) -/

/-- The samples of an instant as numbers. -/
def State.values (s : State) (x : Samples) : List Int := (s.fitted x).map BitVec.toInt

/-- The instant as the captures and the level monitor have taken it. -/
def State.sampled (s : State) (x : Samples) : State :=
  { State.captureInstant { s.passTo s.tb.nextStrobe with tb := s.tb.strobe } (s.fitted x) with lev := s.lev.take (s.values x) }

/-- What the crossing watch makes of the instant. -/
def State.watched (s : State) (x : Samples) : Timebase × TbEffect :=
  s.tb.strobe.watch s.hdr.params.hz s.hdr.params.un s.tb.nextStrobe (s.values x)

/-- The instant as the analyser and the crossing watch have taken it, before its boundary. -/
def State.observed (s : State) (x : Samples) : State :=
  let a := (s.sampled x).analyse (s.values x) s.tb.nextIndex s.tb.state
  { a with tb := (s.watched x).1, har := a.har.hear (s.watched x).2 }

/-- The boundary of the instant is evaluated (R44). -/
def State.evaluates (s : State) : Bool := boundaryDue s.tb.nextIndex (min (s.lev.count + 1) 128)

theorem strobe_index (tb : Timebase) : tb.strobe.index = some tb.nextIndex := rfl

theorem take_count (l : Level) (xs : List Int) : (l.take xs).count = min (l.count + 1) 128 := rfl

theorem takeInstant_eq (s : State) (x : Samples) (b : Option (Rx × TriggerFrame)) : s.takeInstant ⟨x, b⟩ =
    if s.evaluates then (((s.observed x).hearBetween b).takeBoundary s.tb.state).trySettle
    else (s.observed x).trySettle.hearBetween b := by
  unfold State.takeInstant State.evaluates State.observed State.watched State.sampled State.values
  simp only [captureInstant_lev, captureInstant_tb, captureInstant_hdr, analyse_tb, analyse_hdr, analyse_lev, passTo_lev, passTo_hdr,
    strobe_index, Option.getD_some, take_count]

section
variable (s : State) (x : Samples)

/-- What the instant has changed by then, but for the analyser and what its settled block changes. -/
theorem observed_frame : let m := s.observed x
    m.clock = (s.passTo s.tb.nextStrobe).clock ∧ m.notes = (s.passTo s.tb.nextStrobe).notes ∧ m.hdr = s.hdr ∧ m.straps = s.straps ∧
      m.line = s.line ∧ m.mode = s.mode ∧ m.sup = s.sup ∧ m.ev = s.ev ∧ m.tb = (s.watched x).1 ∧
      m.cap = (s.captureInstant (s.fitted x)).cap ∧ m.lev = s.lev.take (s.values x) ∧ m.rep = s.rep ∧ m.prn = s.prn ∧
      m.pins = s.pins := by
  have cap : (s.sampled x).cap = (s.captureInstant (s.fitted x)).cap := by
    unfold State.sampled State.captureInstant
    dsimp only
    rw [passTo_cap, passTo_store]
  let u := s.sampled x
  let xs := s.values x
  let n := s.tb.nextIndex
  let st := s.tb.state
  exact ⟨analyse_clock u xs n st, analyse_notes u xs n st, (analyse_hdr u xs n st).trans (passTo_hdr ..),
    (analyse_straps u xs n st).trans (passTo_straps ..), (analyse_line u xs n st).trans (passTo_line ..),
    (analyse_mode u xs n st).trans (passTo_mode ..), (analyse_sup u xs n st).trans (passTo_sup ..),
    (analyse_ev u xs n st).trans (passTo_ev ..), rfl, (analyse_cap u xs n st).trans cap, analyse_lev u xs n st,
    (analyse_rep u xs n st).trans (passTo_rep ..), (analyse_prn u xs n st).trans (passTo_prn ..),
    (analyse_pins u xs n st).trans (passTo_pins ..)⟩

/-- The analyser with the block that the instant begins, where none is current and its index is 0 (R101). -/
def State.begun : Harmonic :=
  if s.tb.nextIndex = 0 ∧ s.har.current.isNone then
    s.har.begin s.hdr.params.k s.channels (s.passTo s.tb.nextStrobe).clock.survey s.provisional
  else s.har

/-- A block takes the instant. -/
def State.takes' (b : Block) : Block :=
  b.take (s.values x) (s.passTo s.tb.nextStrobe).clock.survey s.provisional (s.tb.state == .locked)

end

theorem fillBlock_open {s : State} (h : ∀ b, s.har.current = some b → b.taken < blockInstants s.hdr.params.hz) : s.fillBlock = s := by
  unfold State.fillBlock
  rcases hb : s.har.current with _ | b
  · rfl
  · exact if_neg (Nat.not_le.2 (h b hb))

section
variable {s : State} (x : Samples) (room : ∀ b, s.har.current = some b → b.taken < blockInstants s.hdr.params.hz)
include room

/-- With no block full the analyser takes the instant, and nothing is settled. -/
theorem observed_open : (s.observed x).store = (s.captureInstant (s.fitted x)).store ∧ (s.observed x).ctr = s.ctr ∧
    (s.observed x).har = { s.begun with
      current := s.begun.current.map fun b => (s.takes' x b).hear (s.watched x).2
      settling := s.har.settling.map fun b => b.hear (s.watched x).2 } := by
  have har : (s.sampled x).har = s.har := passTo_har ..
  have hdr : (s.sampled x).hdr = s.hdr := passTo_hdr ..
  have straps : (s.sampled x).straps = s.straps := passTo_straps ..
  have clock : (s.sampled x).clock = (s.passTo s.tb.nextStrobe).clock := rfl
  have store : (s.sampled x).store = (s.captureInstant (s.fitted x)).store := by
    unfold State.sampled State.captureInstant
    dsimp only
    rw [passTo_cap, passTo_store]
  have ctr : (s.sampled x).ctr = s.ctr := passTo_ctr ..
  have idle : (s.sampled x).fillBlock = s.sampled x := fillBlock_open (by rw [har, hdr]; exact room)
  have channels : (s.sampled x).channels = s.channels := by
    unfold State.channels
    rw [straps]
  have provisional : (s.sampled x).provisional = s.provisional := by
    unfold State.provisional
    rw [hdr]
  have analysed : (s.sampled x).analyse (s.values x) s.tb.nextIndex s.tb.state = { s.sampled x with
      har := { s.begun with current := s.begun.current.map (s.takes' x) } } := by
    unfold State.analyse
    rw [idle]
    dsimp only
    rw [har, hdr, channels, provisional, clock]
    rfl
  have settling : s.begun.settling = s.har.settling := by
    unfold State.begun
    split
    · unfold Harmonic.begin
      split <;> rfl
    · rfl
  unfold State.observed
  rw [analysed]
  refine ⟨store, ctr, ?_⟩
  unfold Harmonic.hear
  dsimp only
  rw [Option.map_map, settling]
  rfl

end

/-! ## Blocks fill, hear their verdict, and are settled once -/

theorem begun_accum (s : State) : s.begun.accum = s.har.accum := by
  unfold State.begun
  split
  · unfold Harmonic.begin
    split <;> rfl
  · rfl

theorem exec_instant {s : State} (measures : s.measuring = true) (runs : s.tb.state ≠ .stopped) (x : Samples)
    (b : Option (Rx × TriggerFrame)) : exec (.instant ⟨x, b⟩) s = .next (s.takeInstant ⟨x, b⟩) := by
  refine congrArg Host.Outcome.next (if_pos ?_)
  rw [measures]
  simpa using runs

theorem begun_some {s : State} {b : Block} (h : s.har.current = some b) : s.begun = s.har :=
  if_neg (by rw [h]; exact fun hh => nomatch hh.2)

/-- The marks of the current block after an instant: one taken outside LOCKED gives it the TIMEBASE mark and waits for no verdict,
and so does a cycle judged irregular or left unjudged (R108). -/
theorem takes_marks (s : State) (x : Samples) (b : Block) (f : TbEffect) : let b' := (s.takes' x b).hear f
    (b'.tbMark = true ↔ b.tbMark = true ∨ s.tb.state ≠ .locked ∨ f = .judged false ∨ f = .unjudged) ∧
      (b'.judged = true ↔ s.tb.state ≠ .locked ∨ f ≠ .nothing) := by
  have mark : (s.takes' x b).tbMark = (b.tbMark || !(s.tb.state == .locked)) := rfl
  have waits : (s.takes' x b).judged = !(s.tb.state == .locked) := rfl
  by_cases locked : s.tb.state = .locked
  · have open' : (s.takes' x b).judged = false := by
      rw [waits, locked]
      rfl
    dsimp only
    rw [Block.hear_waiting open' f, mark, locked]
    simp
  · have judged : (s.takes' x b).judged = true := by
      rw [waits]
      simpa using locked
    dsimp only
    rw [Block.hear_judged judged f, mark, judged]
    simp [locked]

/-- BLOCK_ARITHMETIC_DONE completes the arithmetic of the settling block. -/
theorem exec_blockArithmeticDone {s : State} {b : Block} (survey : s.inSurvey = true) (settling : s.har.settling = some b)
    (results : b.results = none) : exec .blockArithmeticDone s =
      .next (State.trySettle { s with har := { s.har with settling := some (b.compute s.hdr.params) } }) := by
  show execBlockArithmeticDone s = _
  unfold execBlockArithmeticDone
  rw [settling]
  exact congrArg _ (if_pos (by rw [survey, results]; rfl))

/-- Settles O29: the verdicts (`Block.hear_waiting`, `takes_marks`), and the settlement they bring about (`trySettle_heard`,
`settle_goesOn`, `settle_sealed`). -/
theorem blocksFillAndSettleOnce : Obligations.BlocksFillAndSettleOnce := by
  unfold Obligations.BlocksFillAndSettleOnce
  refine ⟨fun s b survey current settling full => ?_, fun b => ⟨fun judged => Block.hear_judged judged, fun wait => ?_⟩,
    fun x s measures runs open' room => ?_, fun s l survey locked last' => ?_, fun b => ?_, fun s b survey settling none' => ?_⟩
  · have idle : s.forceSettle = s := by
      unfold State.forceSettle
      rw [settling]
    have fills : s.fillBlock = { s with har := { s.har with current := none, settling := some b } } := by
      unfold State.fillBlock
      rw [current, idle]
      exact if_pos full
    exact congrArg Host.Outcome.next ((if_pos survey).trans fills)
  · exact ⟨rfl, (Block.hear_waiting wait _).trans (by simp), (Block.hear_waiting wait _).trans (by simp),
      (Block.hear_waiting wait _).trans (by simp)⟩
  · intro effect bad
    have taken : s.takeInstant ⟨x, none⟩ = (s.observed x).trySettle :=
      (takeInstant_eq s x none).trans (if_neg (by rw [show s.evaluates = false from open']; decide))
    obtain ⟨-, ctr, har⟩ := observed_open x room
    obtain ⟨-, -, hdr, -⟩ := observed_frame s x
    have accum : (s.observed x).har.accum = s.har.accum := by
      rw [har]
      exact begun_accum s
    refine ⟨_, (exec_instant measures runs x none).trans (congrArg _ taken), fun b current => ?_, fun w settling wait => ?_⟩
    · refine ⟨(s.takes' x b).hear effect, ?_, takes_marks s x b effect⟩
      rw [(trySettle_current _).1, har, begun_some current, current]
      rfl
    · have heard : (s.observed x).har.settling = some (w.hear effect) := by
        rw [har, settling]
        rfl
      obtain ⟨waits, counts⟩ := trySettle_heard heard wait
      refine ⟨fun early => ?_, ?_⟩
      · rw [waits early]
        exact ⟨heard, accum, ctr⟩
      · rw [accum, ctr, hdr] at counts
        exact counts
  · have har := passTo_har s (l + 3 * s.tb.period / 2)
    have hdr := passTo_hdr s (l + 3 * s.tb.period / 2)
    have ctr := passTo_ctr s (l + 3 * s.tb.period / 2)
    have run := exec_crossingTimeout survey locked last'
    generalize s.passTo (l + 3 * s.tb.period / 2) = q at har hdr ctr run
    let u : State := { q with tb := q.tb.holdover, har := q.har.hear .unjudged }
    refine ⟨u.trySettle, run, ?_, ?_, fun w settling wait => ?_⟩
    · rw [trySettle_tb]
      rfl
    · rw [(trySettle_current u).1]
      show q.har.current.map _ = _
      rw [har]
    · have heard : u.har.settling = some (w.hear .unjudged) := by
        show q.har.settling.map _ = _
        rw [har, settling]
        rfl
      have accum : u.har.accum = s.har.accum := congrArg (fun h : Harmonic => (h.hear .unjudged).accum) har
      obtain ⟨waits, counts⟩ := trySettle_heard heard wait
      refine ⟨fun early => ?_, fun results => ?_⟩
      · rw [waits (.inl early), heard, Block.hear_waiting wait]
        exact ⟨by simp, accum, ctr⟩
      · rw [accum, show u.ctr = s.ctr from ctr, show u.hdr = s.hdr from hdr] at counts
        obtain ⟨settled, below, last''⟩ := counts results nofun
        refine ⟨settled, fun h => ?_, last''⟩
        obtain ⟨a', ha', counted, marked, -⟩ := below h
        exact ⟨a', ha', counted, marked (.inr (.inr rfl))⟩
  · refine ⟨rfl, rfl, rfl, rfl, List.length_map .., fun x hx => ?_, fun x hx => ?_⟩
    · obtain ⟨-, -, rfl⟩ := List.mem_map.1 hx
      rfl
    · obtain ⟨-, -, rfl⟩ := List.mem_map.1 hx
      rfl
  · have run := exec_blockArithmeticDone survey settling none'
    let u : State := { s with har := { s.har with settling := some (b.compute s.hdr.params) } }
    refine ⟨fun judged => ?_, fun waits => run.trans (congrArg _ (trySettle_waits (s := u) rfl (.inr waits)))⟩
    have settles : u.trySettle = u.settle (b.compute s.hdr.params) := trySettle_settles (s := u) rfl nofun judged
    intro a results
    refine ⟨fun below => ?_, fun last' => ?_⟩
    · refine ⟨_, a.count (b.compute s.hdr.params), run.trans (congrArg _ (settles.trans (settle_goesOn (s := u) below))), rfl, rfl,
        Accum.count_counted, fun marked => ?_, fun clear event => ?_, fun clear quiet => ?_, ?_⟩
      · rw [Accum.count_timebase (by exact marked)]
        exact ⟨rfl, rfl, Counters.settledBy_timebase (by exact marked)⟩
      · rw [Accum.count_event (by exact clear) (by exact event)]
        exact ⟨rfl, rfl, Counters.settledBy_event (by exact clear) (by exact event)⟩
      · rw [Accum.count_contributes (by exact clear) (by exact quiet)]
        exact ⟨rfl, Counters.settledBy_none (by exact clear) (by exact quiet), rfl⟩
      · obtain ⟨stop, interval, start⟩ := Accum.count_span (a := a) (b := b.compute s.hdr.params)
        exact ⟨stop, interval, start, rfl, rfl, rfl, rfl⟩
    · obtain ⟨har, sealedCount, granted, refused⟩ := settle_sealed (s := u) (b := b.compute s.hdr.params) last'
      intro sum page made
      refine ⟨_, run.trans (congrArg _ settles), har, Accum.count_counted, sealedCount, fun n hn => ?_, refused, ?_, ?_, ?_, ?_⟩
      · obtain ⟨lost, store⟩ := granted n hn
        have whole : decide (sum.counted < s.hdr.params.k) = false := decide_eq_false (Nat.not_lt.2 (by
          rw [show sum.counted = a.counted + 1 from Accum.count_counted]
          exact last'))
        have same : (u.counts (b.compute s.hdr.params)).intervalPage sum false = page :=
          congrArg (fun part => sum.bytes s.hdr.params.un part false (sum.startUnsure || sum.stopUnsure || s.provisional)
            (s.attach sum.start sum.stop)) whole
        refine ⟨lost, store.trans ?_⟩
        exact congrArg (fun bs => ({ made.1.store with writes := made.1.store.writes ++ [.page n 0 bs .seal] } : Store)) same
      · exact settle_line ..
      · exact settle_tb ..
      · exact settle_ev ..
      · exact settle_cap ..

end Sys2Proof.Machine
end

section
/-!
PROOF. The boundary of an instant, what it leaves as it stands, and a TRIGGER that comes before it.
-/

namespace Sys2Proof.Machine

/-! ## What the event unit leaves as it stands (R59 to R69) -/

theorem openEvent_frame (s : State) (r : BoundaryReport) (st : TbState) (k : EventKind) : let t := s.openEvent r st k
    t.clock = s.clock ∧ t.hdr = s.hdr ∧ t.har = s.har ∧ t.lev = s.lev ∧ t.tb = s.tb ∧ t.rep = s.rep ∧ t.prn = s.prn ∧
      t.pins = s.pins ∧ t.straps = s.straps := by
  obtain ⟨rel, missed, opens, -⟩ := openEvent_eq s r st k
  let u := s.opened r st k rel missed
  have frame : ∀ t : State, t = ((u.requestOwn s.ev.seq k.code r.time).1.setLink (u.requestOwn s.ev.seq k.code r.time).2) →
      t.clock = s.clock ∧ t.hdr = s.hdr ∧ t.har = s.har ∧ t.lev = s.lev ∧ t.tb = s.tb ∧ t.rep = s.rep ∧ t.prn = s.prn ∧
        t.pins = s.pins ∧ t.straps = s.straps := fun t ht => by
    rw [ht]
    exact ⟨requestOwn_clock u .., requestOwn_hdr u .., requestOwn_har u .., requestOwn_lev u .., requestOwn_tb u ..,
      requestOwn_rep u .., requestOwn_prn u .., requestOwn_pins u .., requestOwn_straps u ..⟩
  dsimp only
  rw [opens]
  dsimp only
  have kept := frame _ rfl
  split
  · exact kept
  · exact kept

theorem takeReport_frame (s : State) (r : BoundaryReport) (st : TbState) : let t := s.takeReport r st
    t.clock = s.clock ∧ t.hdr = s.hdr ∧ t.har = s.har ∧ t.lev = s.lev ∧ t.tb = s.tb ∧ t.rep = s.rep ∧ t.prn = s.prn ∧
      t.pins = s.pins ∧ t.straps = s.straps := by
  rcases he : s.ev.event with _ | e
  · rcases hk : r.worst with _ | k
    · simp only [State.takeReport, he, hk, and_self]
    · have opens : s.takeReport r st = s.openEvent r st k := by simp only [State.takeReport, he, hk]
      rw [opens]
      exact openEvent_frame s r st k
  · rcases hk : r.worst with _ | k
    · have ends : s.takeReport r st = s.sealEvent 1 r.time := by simp only [State.takeReport, he, hk]
      rw [ends]
      exact ⟨sealEvent_clock .., sealEvent_hdr .., sealEvent_har .., sealEvent_lev .., sealEvent_tb .., sealEvent_rep ..,
        sealEvent_prn .., sealEvent_pins .., sealEvent_straps ..⟩
    · simp only [State.takeReport, he, hk]
      split <;> exact ⟨rfl, rfl, rfl, rfl, rfl, rfl, rfl, rfl, rfl⟩

/-- After a boundary an event is open where a channel is out of NORMAL (R59, R69). -/
theorem takeReport_event (s : State) (r : BoundaryReport) (st : TbState) :
    (s.takeReport r st).ev.event.isSome = r.worst.isSome := by
  rcases he : s.ev.event with _ | e
  · rcases hk : r.worst with _ | k
    · simp only [State.takeReport, he, hk]
      rfl
    · obtain ⟨rel, missed, opens, -⟩ := openEvent_eq s r st k
      have taken : s.takeReport r st = s.openEvent r st k := by simp only [State.takeReport, he, hk]
      obtain ⟨ev, -⟩ := openEvent_fields (s := s) rfl (taken.trans opens)
      rw [ev]
      rfl
  · rcases hk : r.worst with _ | k
    · have ends : s.takeReport r st = s.sealEvent 1 r.time := by simp only [State.takeReport, he, hk]
      rw [ends, sealEvent_event]
      rfl
    · simp only [State.takeReport, he, hk]
      split <;> rfl

/-- Of the line only the TRIGGER of an event that opens is new (R60, R87). -/
theorem takeReport_line (s : State) (r : BoundaryReport) (st : TbState) :
    (s.ev.event = none → s.hdr.params.send = true → ∀ e, (s.takeReport r st).ev.event = some e →
      (s.takeReport r st).line = s.line.handOver s.clock.now (.trigger s.hdr.number e.seq e.kind.code e.start) 15) ∧
    (s.ev.event ≠ none ∨ s.hdr.params.send = false ∨ (s.takeReport r st).ev.event = none → (s.takeReport r st).line = s.line) := by
  rcases he : s.ev.event with _ | e
  · rcases hk : r.worst with _ | k
    · have stays : s.takeReport r st = s := by simp only [State.takeReport, he, hk]
      rw [stays]
      exact ⟨fun _ _ e h => (nomatch he.symm.trans h), fun _ => rfl⟩
    · obtain ⟨rel, missed, opens, -⟩ := openEvent_eq s r st k
      have taken : s.takeReport r st = s.openEvent r st k := by simp only [State.takeReport, he, hk]
      obtain ⟨ev, -, -, -, line⟩ := openEvent_fields (s := s) rfl (taken.trans opens)
      have kind : k.worse k = k := by simp [EventKind.worse]
      refine ⟨fun _ send e h => ?_, fun h => ?_⟩
      · rw [ev] at h
        obtain rfl := Option.some.inj h
        rw [line, if_pos send]
        show _ = s.line.handOver s.clock.now (.trigger s.hdr.number s.ev.seq (k.worse k).code r.time) 15
        rw [kind]
        rfl
      · rw [line]
        refine if_neg fun send => ?_
        rcases h with h | h | h
        · exact h rfl
        · rw [send] at h
          cases h
        · rw [ev] at h
          cases h
  · rcases hk : r.worst with _ | k
    · have ends : s.takeReport r st = s.sealEvent 1 r.time := by simp only [State.takeReport, he, hk]
      rw [ends]
      exact ⟨nofun, fun _ => sealEvent_line ..⟩
    · simp only [State.takeReport, he, hk]
      refine ⟨nofun, fun _ => ?_⟩
      split <;> rfl

/-- An event that opens converts the newest companion, where it has taken 1024 post instants or fewer (R86). -/
theorem takeReport_converts {s : State} {r : BoundaryReport} (he : s.ev.event = none) (worst : r.worst.isSome = true) {sl : Slot}
    (newest : s.companions.getLast? = some sl) (hp : sl.post ≤ 1024) (st : TbState) : ∃ own ∈ (s.takeReport r st).cap.slots,
      own.record = sl.record ∧ own.kind = .own ∧ own.converted = true ∧ own.offset = sl.post := by
  obtain ⟨k, hk⟩ := Option.isSome_iff_exists.1 worst
  obtain ⟨rel, missed, opens, -⟩ := openEvent_eq s r st k
  have taken : s.takeReport r st = s.openEvent r st k := by simp only [State.takeReport, he, hk]
  have converts := requestOwn_converts (s := s.opened r st k rel missed) newest hp s.ev.seq k.code r.time
  dsimp only at opens
  rw [converts] at opens
  obtain ⟨-, -, cap, -⟩ := openEvent_fields converts (taken.trans opens)
  obtain ⟨hsl, -⟩ := mem_companions.1 (List.mem_of_getLast? newest)
  rw [cap]
  refine ⟨_, List.mem_map.2 ⟨sl, hsl, if_pos (beq_self_eq_true _)⟩, rfl, rfl, rfl, rfl⟩

/-! ## The boundary (R27, R44, R54, R109) -/

/-- The boundary report of an instant. -/
def State.reportOf (s : State) : BoundaryReport := s.lev.report s.hdr.params s.clock.survey

/-- The state in which the level monitor has taken its report. -/
def State.reported (s : State) : State := { s with lev := s.lev.evaluate s.reportOf }

/-- The reference test at the boundary. -/
def State.tested (s : State) : Timebase × TbEffect := s.tb.reference (s.reportOf.volts.map (·.after))

theorem evaluate_states (l : Level) (r : BoundaryReport) : (l.evaluate r).volts.map (·.st) = r.volts.map (·.after) := by
  unfold Level.evaluate
  rw [List.map_map]
  rfl

theorem markEvent_har (s : State) : s.markEvent.har = { s.har with
    current := s.har.current.map fun b => { b with evMark := b.evMark || s.ev.event.isSome } } := by
  unfold State.markEvent
  by_cases h : s.ev.event.isSome = true
  · rw [if_pos h, h]
    simp only [Bool.or_true]
  · have same : (s.har.current.map fun b => { b with evMark := b.evMark || s.ev.event.isSome }) = s.har.current := by
      rw [Bool.not_eq_true] at h
      rw [h]
      simp
    rw [if_neg h, same]

/-- What an evaluated boundary makes of the state: the event unit takes the report, the current block gets its mark, and the
reference test is made. -/
theorem takeBoundary_fields (s : State) (st : TbState) : let t := s.takeBoundary st; let u := s.reported.takeReport s.reportOf st
    t.ev = u.ev ∧ t.cap = u.cap ∧ t.line = u.line ∧ t.clock = s.clock ∧ t.hdr = s.hdr ∧ t.lev = s.lev.evaluate s.reportOf ∧
      t.tb = s.tested.1 ∧ t.rep = s.rep ∧ t.prn = s.prn ∧ t.pins = s.pins ∧ t.straps = s.straps ∧
      t.har = { s.har with
        current := s.har.current.map fun b => { b with evMark := b.evMark || s.reportOf.worst.isSome }.hear s.tested.2
        settling := s.har.settling.map fun b => b.hear s.tested.2 } := by
  intro t u
  obtain ⟨clock, hdr, har, lev, tb, rep, prn, pins, straps⟩ := takeReport_frame s.reported s.reportOf st
  have levels : u.markEvent.lev = s.lev.evaluate s.reportOf := (markEvent_lev u).trans lev
  have test : u.markEvent.tb.reference (u.markEvent.lev.volts.map (·.st)) = s.tested := by
    rw [markEvent_tb, show u.tb = s.tb from tb, levels, evaluate_states]
    rfl
  have goes : t = { u.markEvent with tb := s.tested.1, har := u.markEvent.har.hear s.tested.2 } := by
    rw [← test]
    rfl
  have marked : u.markEvent.har = { s.har with
      current := s.har.current.map fun b => { b with evMark := b.evMark || s.reportOf.worst.isSome } } := by
    rw [markEvent_har, show u.har = s.har from har, show u.ev.event.isSome = _ from takeReport_event ..]
  rw [goes]
  refine ⟨markEvent_ev u, markEvent_cap u, markEvent_line u, (markEvent_clock u).trans clock, (markEvent_hdr u).trans hdr, levels, rfl,
    (markEvent_rep u).trans rep, (markEvent_prn u).trans prn, (markEvent_pins u).trans pins, (markEvent_straps u).trans straps, ?_⟩
  show u.markEvent.har.hear s.tested.2 = _
  rw [marked]
  unfold Harmonic.hear
  dsimp only
  rw [Option.map_map]
  rfl

/-- The settlement of a block changes the analyser in the same way in states that share it. -/
theorem trySettle_har_congr {s u : State} (har : u.har = s.har) (hdr : u.hdr = s.hdr) : u.trySettle.har = s.trySettle.har := by
  rcases h : s.har.settling with _ | b
  · rw [trySettle_none h, trySettle_none (by rw [har]; exact h), har]
  · by_cases ready : b.results ≠ none ∧ b.judged = true
    · rw [trySettle_settles h ready.1 ready.2, trySettle_settles (s := u) (by rw [har]; exact h) ready.1 ready.2]
      have same : u.intervalOf b = s.intervalOf b := by
        unfold State.intervalOf
        rw [har]
      by_cases below : (s.intervalOf b).counted + 1 < s.hdr.params.k
      · rw [settle_goesOn below, settle_goesOn (s := u) (by rw [same, hdr]; exact below)]
        unfold State.counts
        dsimp only
        rw [same, har]
      · have last' := Nat.not_lt.1 below
        rw [(settle_sealed last').1, (settle_sealed (s := u) (by rw [same, hdr]; exact last')).1, har]
    · have waits : b.results = none ∨ b.judged = false := by simpa [Classical.or_iff_not_imp_left] using ready
      rw [trySettle_waits h waits, trySettle_waits (s := u) (by rw [har]; exact h) waits, har]

/-! ## A TRIGGER before the boundary (R86, R91, R93) -/

/-- An operation that neither reads nor changes the level monitor. -/
def leavesLev (f : State → State) : Prop := ∀ (s : State) (l : Level), f { s with lev := l } = { f s with lev := l }

/-- A capture opens in slot `n`, or its record is refused (R81, R82). -/
def State.openCaptureIn (s : State) (q : CapRequest) (n : Nat) : State × Option Nat :=
  let made := s.create ⟨.waveform, some q.kind, none, plannedPages s.cap.ring.length s.channels⟩
  match made.2 with
  | none => made
  | some r =>
    let sl := made.1.newSlot q n r
    let out := fillPages 6 sl (made.1.store.push (.page r 0 (sl.headerBytes made.1.channels) .more))
    ({ made.1 with cap := { made.1.cap with slots := putSlot made.1.cap.slots out.1 }, store := out.2 }, some r)

theorem openCapture_free {s : State} {q : CapRequest} {n : Nat} (h : freeSlot s.cap.slots = some n) :
    s.openCapture q = s.openCaptureIn q n := by
  simp only [State.openCapture, State.findSlot, h]
  rfl

theorem openCapture_preempts {s : State} {q : CapRequest} {sl : Slot} (h : freeSlot s.cap.slots = none)
    (hp : preemptable s.cap.slots q.level = some sl) : s.openCapture q = (s.truncate sl).openCaptureIn q sl.num := by
  simp only [State.openCapture, State.findSlot, h, hp, Option.map_some]
  rfl

theorem openCapture_none {s : State} {q : CapRequest} (h : freeSlot s.cap.slots = none)
    (hp : preemptable s.cap.slots q.level = none) : s.openCapture q = (s, none) := by
  simp only [State.openCapture, State.findSlot, h, hp, Option.map_none]

theorem openCapture_withLev (s : State) (l : Level) (q : CapRequest) :
    State.openCapture { s with lev := l } q = ({ (s.openCapture q).1 with lev := l }, (s.openCapture q).2) := by
  have opens (u : State) (n : Nat) : State.openCaptureIn { u with lev := l } q n =
      ({ (u.openCaptureIn q n).1 with lev := l }, (u.openCaptureIn q n).2) := by
    have made : State.create { u with lev := l } ⟨.waveform, some q.kind, none, plannedPages u.cap.ring.length u.channels⟩ =
        ({ (u.create ⟨.waveform, some q.kind, none, plannedPages u.cap.ring.length u.channels⟩).1 with lev := l },
          (u.create ⟨.waveform, some q.kind, none, plannedPages u.cap.ring.length u.channels⟩).2) := rfl
    unfold State.openCaptureIn
    dsimp only
    rw [show State.channels { u with lev := l } = u.channels from rfl, made]
    rcases u.create ⟨.waveform, some q.kind, none, plannedPages u.cap.ring.length u.channels⟩ with ⟨v, _ | r⟩ <;> rfl
  rcases hf : freeSlot s.cap.slots with _ | n
  · rcases hp : preemptable s.cap.slots q.level with _ | sl
    · rw [openCapture_none hf hp, openCapture_none (s := { s with lev := l }) hf hp]
    · rw [openCapture_preempts hf hp, openCapture_preempts (s := { s with lev := l }) hf hp]
      exact opens (s.truncate sl) sl.num
  · rw [openCapture_free hf, openCapture_free (s := { s with lev := l }) hf]
    exact opens s n

theorem requestCompanion_leavesLev (n seq start : Nat) : leavesLev fun s => s.requestCompanion n seq start := fun s l => by
  rcases h : s.openCapture (s.companionRequest n seq start) with ⟨t, _ | r⟩
  · have h' : State.openCapture { s with lev := l } (s.companionRequest n seq start) = ({ t with lev := l }, none) := by
      rw [openCapture_withLev, h]
    dsimp only
    rw [requestCompanion_missed h, requestCompanion_missed (s := { s with lev := l }) h']
  · have h' : State.openCapture { s with lev := l } (s.companionRequest n seq start) = ({ t with lev := l }, some r) := by
      rw [openCapture_withLev, h]
    dsimp only
    rw [requestCompanion_opened h, requestCompanion_opened (s := { s with lev := l }) h']

theorem leavesLev.ite {c : State → Bool} {f g : State → State} (same : ∀ (s : State) l, c { s with lev := l } = c s) (hf : leavesLev f)
    (hg : leavesLev g) : leavesLev fun s => if c s then f s else g s := fun s l => by
  dsimp only
  rw [same]
  by_cases h : c s = true
  · rw [if_pos h, if_pos h]
    exact hf s l
  · rw [if_neg h, if_neg h]
    exact hg s l

theorem offer_leavesLev (p : Nat × Nat) : leavesLev fun s => s.offer p := fun s l => by
  rcases he : s.ev.event with _ | e
  · simp only [State.offer, he]
  · simp only [State.offer, he]
    split
    · rfl
    · split <;> rfl

theorem takeTrigger_leavesLev (n : Nat) (f : TriggerFrame) : leavesLev fun s => s.takeTrigger n f :=
  leavesLev.ite (c := fun s => s.measuring && f.number.toNat == s.hdr.number && s.hdr.params.accept) (fun _ _ => rfl)
    (leavesLev.ite (c := fun s => s.ev.event.isSome) (fun _ _ => rfl) (offer_leavesLev _)
      (leavesLev.ite (c := fun s => s.companions.any fun sl => sl.station == n) (fun _ _ => rfl) (fun _ _ => rfl)
        (requestCompanion_leavesLev n f.seq.toNat f.start.toNat))) fun _ _ => rfl

theorem hearTrigger_leavesLev (rx : Rx) (f : TriggerFrame) : leavesLev fun s => s.hearTrigger rx f :=
  leavesLev.ite (c := fun s => !s.listening || rx.sender.toNat == 15) (fun _ _ => rfl) (fun _ _ => rfl)
    (leavesLev.ite (c := fun s => s.ownNumber == some rx.sender.toNat) (fun _ _ => rfl) (fun _ _ => rfl)
      (leavesLev.ite (c := fun s => State.addressed { s with line := s.line.refresh rx.sender.toNat s.clock.now none } rx)
        (fun _ _ => rfl) (fun s l => takeTrigger_leavesLev _ f { s with line := s.line.refresh rx.sender.toNat s.clock.now none } l)
        fun _ _ => rfl))

end Sys2Proof.Machine
end

section
/-!
PROOF. INSTANT.
-/

namespace Sys2Proof.Machine

/-! ## What a TRIGGER leaves as it stands -/

theorem takeTrigger_frame (s : State) (n : Nat) (f : TriggerFrame) : let t := s.takeTrigger n f
    t.clock = s.clock ∧ t.hdr = s.hdr ∧ t.har = s.har ∧ t.lev = s.lev ∧ t.tb = s.tb ∧ (s.ev.event = none → t.ev = s.ev) := by
  intro t
  have open' : s.ev.event ≠ none → (s.offer (n, f.seq.toNat)).clock = s.clock ∧ (s.offer (n, f.seq.toNat)).hdr = s.hdr ∧
      (s.offer (n, f.seq.toNat)).har = s.har ∧ (s.offer (n, f.seq.toNat)).lev = s.lev ∧ (s.offer (n, f.seq.toNat)).tb = s.tb ∧
      (s.ev.event = none → (s.offer (n, f.seq.toNat)).ev = s.ev) := fun some =>
    ⟨offer_clock .., offer_hdr .., offer_har .., offer_lev .., offer_tb .., fun none => absurd none some⟩
  by_cases hears : s.hears f
  · rcases he : s.ev.event with _ | e
    · by_cases again : s.hasCompanion n
      · rw [show t = s from takeTrigger_again he again]
        exact ⟨rfl, rfl, rfl, rfl, rfl, fun _ => rfl⟩
      · rw [show t = _ from takeTrigger_request hears he again]
        exact ⟨requestCompanion_clock .., requestCompanion_hdr .., requestCompanion_har .., requestCompanion_lev ..,
          requestCompanion_tb .., fun _ => requestCompanion_ev ..⟩
    · rw [show t = _ from takeTrigger_open hears he n, ← he]
      exact open' (by rw [he]; exact Option.some_ne_none e)
  · rw [show t = s from takeTrigger_deaf hears n]
    exact ⟨rfl, rfl, rfl, rfl, rfl, fun _ => rfl⟩

theorem hearTrigger_frame (s : State) (rx : Rx) (f : TriggerFrame) : let t := s.hearTrigger rx f
    t.clock = s.clock ∧ t.hdr = s.hdr ∧ t.har = s.har ∧ t.lev = s.lev ∧ t.tb = s.tb ∧ (s.ev.event = none → t.ev = s.ev) := by
  have taken := takeTrigger_frame { s with line := s.line.refresh rx.sender.toNat s.clock.now none } rx.sender.toNat f
  unfold State.hearTrigger State.receive
  dsimp only
  split
  · exact ⟨rfl, rfl, rfl, rfl, rfl, fun _ => rfl⟩
  · split
    · exact ⟨rfl, rfl, rfl, rfl, rfl, fun _ => rfl⟩
    · split
      · exact taken
      · exact ⟨rfl, rfl, rfl, rfl, rfl, fun _ => rfl⟩

/-! ## The captures and the windows (R43, R83) -/

theorem Slot.take_spec (sl : Slot) (xs : List (BitVec 16)) (st : Store) :
    let held := sl.buf ++ instantBytes xs
    (held.length < 1024 → sl.take xs st = ({ sl with post := sl.post + 1, buf := held }, st)) ∧
    (1024 ≤ held.length → sl.take xs st =
      ({ sl with post := sl.post + 1, buf := held.drop 1024, nextPos := sl.nextPos + 1 },
        { st with writes := st.writes ++ [.page sl.record sl.nextPos (held.take 1024) .more] })) :=
  ⟨fun part => if_neg (Nat.not_le.2 part), fun full => if_pos full⟩

/-- What a capture makes of an instant does not depend on the store. -/
theorem Slot.take_fst (sl : Slot) (xs : List (BitVec 16)) (st st' : Store) : (sl.take xs st).1 = (sl.take xs st').1 := by
  obtain ⟨part, full⟩ := sl.take_spec xs st
  obtain ⟨part', full'⟩ := sl.take_spec xs st'
  rcases Nat.lt_or_ge (sl.buf ++ instantBytes xs).length 1024 with h | h
  · rw [part h, part' h]
  · rw [full h, full' h]

theorem takeSlots_map (xs : List (BitVec 16)) (l : List Slot) (st st' : Store) :
    (takeSlots xs l st).1 = l.map fun sl => if sl.running then (sl.take xs st').1 else sl := by
  induction l generalizing st with
  | nil => rfl
  | cons sl l ih =>
    unfold takeSlots
    dsimp only
    rw [ih, List.map_cons]
    by_cases running : sl.running = true
    · rw [if_pos running, if_pos running, sl.take_fst xs st st']
    · rw [if_neg running, if_neg running]

theorem length_filter_push {α : Type} (p : α → Bool) (l : List α) (a : α) :
    ((l ++ [a]).filter p).length = (l.filter p).length + (p a).toNat := by
  rw [List.filter_append, List.length_append]
  rcases h : p a with _ | _ <;> simp [h]

theorem length_filter_cons {α : Type} (p : α → Bool) (l : List α) (a : α) :
    ((a :: l).filter p).length = (l.filter p).length + (p a).toNat := by
  rcases h : p a with _ | _ <;> simp [h]

/-- A channel takes a sample as the newest of 128. -/
theorem Chan.take_spec (c : Chan) (x : Int) (h : c.window.length ≤ 128) : (c.take x).window = pushBounded 128 c.window x ∧
    (c.sumSq = (c.window.map square).sum → (c.take x).sumSq = ((c.take x).window.map square).sum) ∧
    (c.clips = (c.window.filter isClipped).length → (c.take x).clips = ((c.take x).window.filter isClipped).length) := by
  have grows : (h : c.window.length < 128) → c.take x = { c with
      window := c.window ++ [x], sumSq := c.sumSq + square x, clips := c.clips + (isClipped x).toNat } := fun h => by
    unfold Chan.take
    rcases hw : c.window with _ | ⟨o, rest⟩
    · rfl
    · exact if_neg (by rw [← hw]; omega)
  by_cases room : c.window.length < 128
  · rw [grows room]
    refine ⟨(if_pos room).symm, fun sum => ?_, fun count => ?_⟩
    · simp [sum]
    · exact (congrArg (· + _) count).trans (length_filter_push ..).symm
  · obtain ⟨o, rest, hw⟩ : ∃ o rest, c.window = o :: rest := by
      rcases hw : c.window with _ | ⟨o, rest⟩
      · rw [hw] at room
        exact absurd (by decide) room
      · exact ⟨o, rest, rfl⟩
    have full : c.window.length = 128 := by omega
    have moves : c.take x = { c with
        window := rest ++ [x], sumSq := c.sumSq - square o + square x
        clips := c.clips - (isClipped o).toNat + (isClipped x).toNat } := by
      unfold Chan.take
      rw [hw]
      exact if_pos (by rw [← hw, full])
    rw [moves]
    refine ⟨?_, fun sum => ?_, fun count => ?_⟩
    · unfold pushBounded
      rw [if_neg room, full, hw]
      rfl
    · rw [hw] at sum
      simp [sum]
    · rw [hw, length_filter_cons] at count
      refine Eq.trans ?_ (length_filter_push ..).symm
      show c.clips - (isClipped o).toNat + (isClipped x).toNat = _
      omega

/-! ## The sums of a block (R103, R104) -/

theorem cosTable_mod (i : Nat) : cosTable (i % 128) = cosTable i := by
  unfold cosTable
  rw [Nat.mod_mod]

theorem sinTable_mod (i : Nat) : sinTable (i % 128) = sinTable i := by
  unfold sinTable
  rw [← cosTable_mod (i % 128 + 96), ← cosTable_mod (i + 96), Nat.mod_add_mod]

theorem orders_get {h : Nat} (hh : h < 40) : orders[h]? = some (h + 1) := by
  unfold orders
  rw [List.getElem?_map, List.getElem?_range hh]
  rfl

theorem addSample_get {n h : Nat} {x : Int} {sums : List (Int × Int)} {re im : Int} (hh : h < 40) (hs : sums[h]? = some (re, im)) :
    (addSample n x sums)[h]? = some (re + x * cosTable ((h + 1) * n % 128), im + x * sinTable ((h + 1) * n % 128)) := by
  unfold addSample
  rw [List.getElem?_zipWith, orders_get hh, hs, cosTable_mod, sinTable_mod]

/-! ## The timebase keeps its pace (R25) -/

/-- What a timebase paces by: the next strobe, the step fraction, the index, and no change of P that waits. -/
def Timebase.paces (tb u : Timebase) : Prop :=
  u.nextStrobe = tb.nextStrobe ∧ u.frac = tb.frac ∧ u.index = tb.index ∧ (tb.nextPeriod = none → u.nextPeriod = none)

theorem Timebase.paces.trans {tb u v : Timebase} (h : tb.paces u) (g : u.paces v) : tb.paces v := by
  obtain ⟨strobe, frac, index, next⟩ := h
  obtain ⟨strobe', frac', index', next'⟩ := g
  exact ⟨strobe'.trans strobe, frac'.trans frac, index'.trans index, fun none => next' (next none)⟩

theorem interval_paces (tb : Timebase) (hz i : Nat) : tb.paces (tb.interval hz i).1 := by
  have lock (l : List Nat) : tb.paces (tb.lock l) := ⟨rfl, rfl, rfl, fun _ => rfl⟩
  have stays (q : Nat) : tb.paces { tb with qual := q } := ⟨rfl, rfl, rfl, id⟩
  unfold Timebase.interval
  cases tb.state with
  | stopped => exact stays tb.qual
  | free =>
    dsimp only
    split
    · exact lock _
    · exact stays tb.qual
  | peer =>
    dsimp only
    split
    · exact lock _
    · exact stays tb.qual
  | locked =>
    dsimp only
    split <;> exact ⟨rfl, rfl, rfl, id⟩
  | holdover =>
    dsimp only
    split
    · split
      · exact lock _
      · exact stays (tb.qual + 1)
    · exact stays 0

theorem watch_paces (tb : Timebase) (hz un t : Nat) (xs : List Int) : tb.paces (tb.watch hz un t xs).1 := by
  have still {u : Timebase} (h : tb.paces u) (c : Nat) : tb.paces (u.crossing hz c).1 := by
    unfold Timebase.crossing
    dsimp only
    rcases u.lastCrossing with _ | l
    · dsimp only
      split <;> exact h
    · refine Timebase.paces.trans (u := { u with
        armLow := false, armHigh := false, lastCrossing := some c, history := pushBounded 8 u.history (c - l) }) ?_ (interval_paces ..)
      exact h
  unfold Timebase.watch
  dsimp only
  rcases tb.prev with _ | ⟨ta, prev⟩
  · exact ⟨rfl, rfl, rfl, id⟩
  · dsimp only
    split
    · refine still ?_ _
      exact ⟨rfl, rfl, rfl, id⟩
    · exact ⟨rfl, rfl, rfl, id⟩

theorem reference_paces (tb : Timebase) (states : List ChState) : tb.paces (tb.reference states).1 := by
  unfold Timebase.reference
  split
  · split
    · dsimp only
      split <;> exact ⟨rfl, rfl, rfl, id⟩
    · exact ⟨rfl, rfl, rfl, id⟩
  · exact ⟨rfl, rfl, rfl, id⟩

/-! ## The ring (R76) -/

theorem openCapture_ring (s : State) (q : CapRequest) : (s.openCapture q).1.cap.ring = s.cap.ring := by
  have opens (u : State) (n : Nat) : (u.openCaptureIn q n).1.cap.ring = u.cap.ring := by
    have made : (u.create ⟨.waveform, some q.kind, none, plannedPages u.cap.ring.length u.channels⟩).1.cap.ring = u.cap.ring := by
      rw [create_cap]
    unfold State.openCaptureIn
    dsimp only
    split
    · exact made
    · exact made
  rcases hf : freeSlot s.cap.slots with _ | n
  · rcases hp : preemptable s.cap.slots q.level with _ | sl
    · rw [openCapture_none hf hp]
    · rw [openCapture_preempts hf hp]
      exact opens ..
  · rw [openCapture_free hf]
    exact opens ..

theorem requestOwn_ring (s : State) (seq level start : Nat) : (s.requestOwn seq level start).1.cap.ring = s.cap.ring := by
  have fresh : (s.requestFresh seq level start).1.cap.ring = s.cap.ring := by
    unfold State.requestFresh
    dsimp only
    split <;> exact openCapture_ring ..
  unfold State.requestOwn
  split
  · split
    · rfl
    · exact fresh
  · exact fresh

theorem takeReport_ring (s : State) (r : BoundaryReport) (st : TbState) : (s.takeReport r st).cap.ring = s.cap.ring := by
  rcases he : s.ev.event with _ | e
  · rcases hk : r.worst with _ | k
    · simp only [State.takeReport, he, hk]
    · obtain ⟨rel, missed, opens, -⟩ := openEvent_eq s r st k
      have taken : s.takeReport r st = s.openEvent r st k := by simp only [State.takeReport, he, hk]
      obtain ⟨-, -, cap, -⟩ := openEvent_fields (s := s) rfl (taken.trans opens)
      rw [cap]
      exact requestOwn_ring ..
  · rcases hk : r.worst with _ | k
    · have ends : s.takeReport r st = s.sealEvent 1 r.time := by simp only [State.takeReport, he, hk]
      rw [ends, sealEvent_cap]
    · simp only [State.takeReport, he, hk]
      split <;> rfl

end Sys2Proof.Machine
end

section
/-!
PROOF. INSTANT, put together from what comes before its boundary and what the boundary makes of it.
-/

namespace Sys2Proof.Machine

/-! ## The instant as a whole -/

section
variable (s : State) (x : Samples)

theorem takeInstant_due (due : s.evaluates = true) (b : Option (Rx × TriggerFrame)) :
    s.takeInstant ⟨x, b⟩ = (((s.observed x).hearBetween b).takeBoundary s.tb.state).trySettle :=
  (takeInstant_eq s x b).trans (if_pos due)

theorem takeInstant_between (due : s.evaluates = false) (b : Option (Rx × TriggerFrame)) :
    s.takeInstant ⟨x, b⟩ = (s.observed x).trySettle.hearBetween b :=
  (takeInstant_eq s x b).trans (if_neg (by rw [due]; decide))

/-- The mark and the verdict that the boundary brings the current block. -/
def State.boundaryBlock (b : Block) : Block :=
  { b with evMark := b.evMark || s.reportOf.worst.isSome }.hear s.tested.2

/-- The instant's outcome, by whether its boundary is evaluated. -/
theorem takeInstant_fields : let t := s.takeInstant ⟨x, none⟩; let m := s.observed x
    t.clock = m.clock ∧ t.hdr = m.hdr ∧ t.rep = m.rep ∧ t.prn = m.prn ∧ t.pins = m.pins ∧ t.straps = m.straps ∧
      t.lev = (if s.evaluates then m.lev.evaluate m.reportOf else m.lev) ∧
      t.tb = (if s.evaluates then m.tested.1 else m.tb) ∧ t.har.intervalCounter = m.har.intervalCounter ∧
      t.har.current = m.har.current.map (fun b => if s.evaluates then m.boundaryBlock b else b) ∧
      t.cap.ring = m.cap.ring ∧
      (s.evaluates = true → t.ev = (m.reported.takeReport m.reportOf s.tb.state).ev ∧
        t.cap = (m.reported.takeReport m.reportOf s.tb.state).cap ∧ t.line = (m.reported.takeReport m.reportOf s.tb.state).line) ∧
      (s.evaluates = false → t.ev = m.ev ∧ t.cap = m.cap ∧ t.line = m.line) := by
  intro t m
  rcases due : s.evaluates with _ | _
  · have taken : t = m.trySettle := takeInstant_between s x due none
    have whole : m.har.current.map (fun b => if (false : Bool) = true then m.boundaryBlock b else b) = m.har.current := by simp
    rw [taken, whole]
    obtain ⟨current, counter⟩ := trySettle_current m
    exact ⟨trySettle_clock .., trySettle_hdr .., trySettle_rep .., trySettle_prn .., trySettle_pins .., trySettle_straps ..,
      trySettle_lev .., trySettle_tb .., counter, current, congrArg Capture.ring (trySettle_cap m), nofun,
      fun _ => ⟨trySettle_ev .., trySettle_cap .., trySettle_line ..⟩⟩
  · let u := m.takeBoundary s.tb.state
    have taken : t = u.trySettle := takeInstant_due s x due none
    obtain ⟨ev, cap, line, clock, hdr, lev, tb, rep, prn, pins, straps, har⟩ := takeBoundary_fields m s.tb.state
    obtain ⟨current, counter⟩ := trySettle_current u
    rw [taken]
    refine ⟨(trySettle_clock u).trans clock, (trySettle_hdr u).trans hdr, (trySettle_rep u).trans rep, (trySettle_prn u).trans prn,
      (trySettle_pins u).trans pins, (trySettle_straps u).trans straps, (trySettle_lev u).trans lev, (trySettle_tb u).trans tb,
      counter.trans ?_, current.trans ?_, ?_, fun _ => ⟨(trySettle_ev u).trans ev, (trySettle_cap u).trans cap,
        (trySettle_line u).trans line⟩, nofun⟩
    · rw [show u.har = _ from har]
    · rw [show u.har = _ from har]
      rfl
    · rw [trySettle_cap, show u.cap = _ from cap, takeReport_ring]
      rfl

end

/-! ## The blocks (R101, R104, R108, R109) -/

theorem Block.hear_fields (b : Block) (f : TbEffect) : let b' := b.hear f
    b'.taken = b.taken ∧ b'.sums = b.sums ∧ b'.first = b.first ∧ b'.last = b.last ∧ b'.interval = b.interval ∧ b'.evMark = b.evMark ∧
      (b.tbMark = true → b'.tbMark = true) := by
  by_cases h : b.judged = true
  · dsimp only
    rw [Block.hear_judged h]
    exact ⟨rfl, rfl, rfl, rfl, rfl, rfl, id⟩
  · dsimp only
    rw [Block.hear_waiting (by simpa using h)]
    exact ⟨rfl, rfl, rfl, rfl, rfl, rfl, fun mark => by simp [mark]⟩

/-- The current block after the instant, with its mark and verdicts. -/
theorem takeInstant_block {s : State} {x : Samples} {b : Block} {f : TbEffect}
    (h : (s.observed x).har.current = some (b.hear f)) : ∃ b', (s.takeInstant ⟨x, none⟩).har.current = some b' ∧
      b'.taken = b.taken ∧ b'.sums = b.sums ∧ b'.first = b.first ∧ b'.last = b.last ∧ b'.interval = b.interval ∧
      (b.tbMark = true → b'.tbMark = true) ∧
      (b'.evMark = true ↔ b.evMark = true ∨ (s.evaluates = true ∧ (s.observed x).reportOf.worst.isSome = true)) := by
  obtain ⟨-, -, -, -, -, -, -, -, -, current, -⟩ := takeInstant_fields s x
  obtain ⟨taken, sums, first', last', interval, event, mark⟩ := b.hear_fields f
  rw [h] at current
  rcases due : s.evaluates with _ | _
  · refine ⟨_, current.trans (congrArg some (if_neg (by rw [due]; decide))), taken, sums, first', last', interval, mark, ?_⟩
    rw [event]
    simp
  · let marked : Block := { b.hear f with evMark := (b.hear f).evMark || (s.observed x).reportOf.worst.isSome }
    obtain ⟨taken', sums', first'', last'', interval', event', mark'⟩ := marked.hear_fields (s.observed x).tested.2
    refine ⟨_, current.trans (congrArg some (if_pos due)), taken'.trans taken, sums'.trans sums, first''.trans first',
      last''.trans last', interval'.trans interval, fun hb => mark' (mark hb), ?_⟩
    have both : ((s.observed x).boundaryBlock (b.hear f)).evMark = (b.evMark || (s.observed x).reportOf.worst.isSome) :=
      event'.trans (congrArg (· || _) event)
    rw [both]
    simp

/-- A block begins in the interval that the counter then names (R101, R111). -/
theorem Harmonic.begin_current (a : Harmonic) (k channels t : Nat) (unsure : Bool) :
    (a.begin k channels t unsure).current = some (freshBlock channels (a.begin k channels t unsure).intervalCounter t unsure) := by
  unfold Harmonic.begin
  split <;> rfl

/-! ## A TRIGGER before the boundary (R86, R91, R93) -/

/-- A TRIGGER that comes during an instant whose boundary is evaluated. -/
theorem takeInstant_trigger {s : State} (due : s.evaluates = true) (x : Samples) (rx : Rx) (f : TriggerFrame) :
    let t := s.takeInstant ⟨x, none⟩; let t' := s.takeInstant ⟨x, some (rx, f)⟩; let m := s.observed x
    let m' := m.reported.hearTrigger rx f; let u := m'.takeReport m.reportOf s.tb.state
    t'.ev = u.ev ∧ t'.cap = u.cap ∧ t'.line = u.line ∧ t'.clock = t.clock ∧ t'.lev = t.lev ∧ t'.tb = t.tb ∧ t'.har = t.har ∧
      t'.hdr = t.hdr ∧ (m.ev.event = none → m'.ev.event = none) := by
  intro t t' m m' u
  let h := m.hearTrigger rx f
  obtain ⟨clock, hdr, har, lev, tb, event⟩ := hearTrigger_frame m rx f
  have report : h.reportOf = m.reportOf := by
    unfold State.reportOf
    rw [show h.lev = m.lev from lev, show h.hdr = m.hdr from hdr, show h.clock = m.clock from clock]
  have reported : m' = h.reported := by
    have same : h.reported = { h with lev := m.lev.evaluate m.reportOf } := by
      unfold State.reported
      rw [report, show h.lev = m.lev from lev]
    rw [same]
    exact hearTrigger_leavesLev rx f m (m.lev.evaluate m.reportOf)
  have tested : h.tested = m.tested := by
    unfold State.tested
    rw [report, show h.tb = m.tb from tb]
  let p := h.takeBoundary s.tb.state
  let q := m.takeBoundary s.tb.state
  have taken' : t' = p.trySettle := takeInstant_due s x due (some (rx, f))
  have taken : t = q.trySettle := takeInstant_due s x due none
  obtain ⟨ev₁, cap₁, line₁, clock₁, hdr₁, lev₁, tb₁, -, -, -, -, har₁⟩ := takeBoundary_fields h s.tb.state
  obtain ⟨-, -, -, clock₂, hdr₂, lev₂, tb₂, -, -, -, -, har₂⟩ := takeBoundary_fields m s.tb.state
  have hdrs : p.hdr = q.hdr := hdr₁.trans (hdr.trans hdr₂.symm)
  have hars : p.har = q.har := by
    rw [show p.har = _ from har₁, show q.har = _ from har₂, report, tested, show h.har = m.har from har]
  have same : u = h.reported.takeReport h.reportOf s.tb.state := by
    show m'.takeReport m.reportOf s.tb.state = _
    rw [reported, report]
  rw [taken', taken, same]
  refine ⟨(trySettle_ev p).trans ev₁, (trySettle_cap p).trans cap₁, (trySettle_line p).trans line₁, ?_, ?_, ?_,
    trySettle_har_congr hars hdrs, ?_, fun none' => ?_⟩
  · exact (trySettle_clock p).trans (clock₁.trans (clock.trans (clock₂.symm.trans (trySettle_clock q).symm)))
  · rw [trySettle_lev, trySettle_lev, show p.lev = _ from lev₁, show q.lev = _ from lev₂, report, show h.lev = m.lev from lev]
  · rw [trySettle_tb, trySettle_tb, show p.tb = _ from tb₁, show q.tb = _ from tb₂, tested]
  · rw [trySettle_hdr, trySettle_hdr, hdrs]
  · rw [reported]
    exact (congrArg EventUnit.event (event none')).trans none'

/-! ## The statement -/

theorem exec_instant_idle {s : State} (idle : s.measuring = false ∨ s.tb.state = .stopped) (x : Samples)
    (b : Option (Rx × TriggerFrame)) : exec (.instant ⟨x, b⟩) s = .next (s.hearBetween b) := by
  refine congrArg Host.Outcome.next (if_neg fun h => ?_)
  obtain ⟨measures, runs⟩ := Bool.and_eq_true_iff.1 h
  rcases idle with idle | idle
  · rw [idle] at measures
    cases measures
  · rw [idle] at runs
    cases runs

/-- The windows after an instant, with its boundary evaluated or not (R43). -/
theorem chans_get {l : Level} {xs : List Int} {i : Nat} {c : Chan} {x : Int} (hc : l.chans[i]? = some c) (hx : xs[i]? = some x)
    (e : Bool) (r : BoundaryReport) : ∃ c', (if e then (l.take xs).evaluate r else l.take xs).chans[i]? = some c' ∧
      c'.window = (c.take x).window ∧ c'.sumSq = (c.take x).sumSq ∧ c'.clips = (c.take x).clips := by
  have taken : (l.take xs).chans[i]? = some (c.take x) := by
    show (List.zipWith Chan.take l.chans xs)[i]? = _
    rw [List.getElem?_zipWith, hc, hx]
  cases e
  · exact ⟨c.take x, taken, rfl, rfl, rfl⟩
  · refine ⟨(c.take x).evaluate, ?_, rfl, rfl, rfl⟩
    show ((l.take xs).chans.map Chan.evaluate)[i]? = _
    rw [List.getElem?_map, taken]
    rfl

/-- Settles O19: the instant up to its boundary (`observed_frame`, `observed_open`), its outcome (`takeInstant_fields`,
`takeInstant_block`), and the TRIGGER that comes between (`takeInstant_trigger`). -/
theorem instantIsTaken : Obligations.InstantIsTaken := by
  unfold Obligations.InstantIsTaken
  refine ⟨fun x s rx f idle => ⟨exec_instant_idle idle x none, exec_instant_idle idle x (some (rx, f))⟩,
    fun x s measures runs => ?_, fun n h x sums re im hh hs => addSample_get hh hs, fun sl xs st => sl.take_spec xs st⟩
  obtain ⟨clock, notes, hdr, straps, line, mode, sup, ev, tb, cap, lev, rep, prn, pins⟩ := observed_frame s x
  obtain ⟨clock', hdr', rep', prn', pins', straps', lev', tb', counter, current, ring, whenDue, whenNot⟩ := takeInstant_fields s x
  have paces := watch_paces s.tb.strobe s.hdr.params.hz s.hdr.params.un s.tb.nextStrobe (s.values x)
  have paced : s.tb.strobe.paces (s.takeInstant ⟨x, none⟩).tb := by
    rw [tb']
    split
    · unfold State.tested
      rw [tb]
      exact paces.trans (reference_paces ..)
    · rw [tb]
      exact paces
  obtain ⟨strobe, frac, index, next⟩ := paced
  have now : (s.takeInstant ⟨x, none⟩).clock = (s.passTo s.tb.nextStrobe).clock := clock'.trans clock
  have run (b : Option (Rx × TriggerFrame)) := exec_instant measures runs x b
  have reports : (s.observed x).reportOf = (s.lev.take (s.values x)).report s.hdr.params (s.passTo s.tb.nextStrobe).clock.survey := by
    unfold State.reportOf
    rw [lev, hdr, clock]
  have levels : (s.takeInstant ⟨x, none⟩).lev = if s.evaluates then (s.lev.take (s.values x)).evaluate (s.observed x).reportOf
      else s.lev.take (s.values x) := by rw [lev', lev]
  refine ⟨_, run none, ?_, ⟨strobe, frac, rfl, next rfl⟩, index, ?_, hdr'.trans hdr, rep'.trans rep, prn'.trans prn, pins'.trans pins,
    straps'.trans straps, ?_, ?_, ?_, ?_, fun i c v hc hv hw => ?_, fun between => ?_⟩
  · rw [now, passTo_now]
  · rw [ring, cap]
    rfl
  · intro xs at' due lev₁ report watched
    have same : (s.observed x).reportOf = report := reports
    have tests : (s.observed x).tested = watched.reference (report.volts.map (·.after)) := by
      unfold State.tested
      rw [tb, same]
      rfl
    refine ⟨now, levels.trans (by rw [same]; rfl), tb'.trans (by rw [tests, tb]; rfl), fun hd => ?_, fun hd rx f => ?_,
      fun b hb room => ?_, fun none' hi => ?_, fun none' hi => ?_⟩
    · obtain ⟨tev, tcap, tline⟩ := whenDue hd
      rw [same] at tev tcap tline
      refine ⟨(s.observed x).reported, clock, notes, hdr, straps, line, mode, sup, ev, tb, cap, fun room => ?_, tev, tcap, tline,
        fun rx f => ?_⟩
      · obtain ⟨store, ctr, -⟩ := observed_open x (s := s) fun b hb => by
          rcases room with none' | ⟨b', hb', room⟩
          · rw [none'] at hb
            cases hb
          · rw [hb] at hb'
            obtain rfl := Option.some.inj hb'
            exact room
        exact ⟨store, ctr⟩
      · obtain ⟨ev', cap', line'', clock'', lev'', tb'', har'', hdr'', closed⟩ := takeInstant_trigger hd x rx f
        rw [same] at ev' cap' line''
        refine ⟨_, _, rfl, run (some (rx, f)), ev', cap', line'', clock'', lev'', tb'', har'', hdr'', fun sl event worst newest post => ?_⟩
        have none' : ((s.observed x).reported.hearTrigger rx f).ev.event = none := closed (by rw [ev]; exact event)
        obtain ⟨own, hown, record, kind, converted, offset⟩ :=
          takeReport_converts none' worst newest (by rw [post]; decide) s.tb.state
        rw [cap']
        exact ⟨own, hown, record, kind, converted, offset.trans post⟩
    · refine (run (some (rx, f))).trans (congrArg Host.Outcome.next ?_)
      rw [takeInstant_between s x hd, takeInstant_between s x hd]
      rfl
    · have here : (s.observed x).har.current = some ((s.takes' x b).hear (s.watched x).2) := by
        obtain ⟨-, -, har⟩ := observed_open x (s := s) fun b' hb' => by
          rw [hb] at hb'
          obtain rfl := Option.some.inj hb'
          exact room
        rw [har, begun_some hb, hb]
        rfl
      obtain ⟨b', hb', taken, sums, first', last', interval, mark, event⟩ := takeInstant_block here
      refine ⟨b', hb', taken, sums, first', last'.trans (congrArg Clock.survey now.symm), interval, fun h => mark ?_, event.trans ?_⟩
      · show (b.tbMark || !(s.tb.state == .locked)) = true
        rcases h with h | h
        · rw [h, Bool.true_or]
        · simp [h]
      · show b.evMark = true ∨ _ ↔ _
        refine or_congr Iff.rfl (and_congr_right fun hd => ?_)
        obtain ⟨tev, -⟩ := whenDue hd
        rw [tev, ← takeReport_event (s.observed x).reported (s.observed x).reportOf s.tb.state, Option.isSome_iff_ne_none]
    · obtain ⟨-, -, har⟩ := observed_open x (s := s) fun b hb => by
        rw [none'] at hb
        cases hb
      have begun : s.begun = s.har := if_neg fun h => hi h.1
      rw [current, har, begun, none']
      rfl
    · obtain ⟨-, -, har⟩ := observed_open x (s := s) fun b hb => by
        rw [none'] at hb
        cases hb
      let a := s.har.begin s.hdr.params.k s.channels (s.passTo s.tb.nextStrobe).clock.survey s.provisional
      have begun : s.begun = a := if_pos ⟨hi, by rw [none']; rfl⟩
      have current' : a.current = _ := Harmonic.begin_current ..
      have here : (s.observed x).har.current = some ((s.takes' x (freshBlock s.channels a.intervalCounter
          (s.passTo s.tb.nextStrobe).clock.survey s.provisional)).hear (s.watched x).2) := by
        rw [har, begun, current']
        rfl
      obtain ⟨b', hb', taken, -, first', -, interval, -⟩ := takeInstant_block here
      refine ⟨b', hb', taken, first'.trans (congrArg Clock.survey now.symm), interval.trans ?_⟩
      rw [counter, har, begun]
      rfl
  · intro closed send e he
    rcases due : s.evaluates with _ | _
    · obtain ⟨tev, -⟩ := whenNot due
      rw [tev, ev, closed] at he
      cases he
    · obtain ⟨tev, -, tline⟩ := whenDue due
      obtain ⟨sends, -⟩ := takeReport_line (s.observed x).reported (s.observed x).reportOf s.tb.state
      rw [tev] at he
      have sent := sends (by exact (congrArg EventUnit.event ev).trans closed) (by
        show (s.observed x).hdr.params.send = true
        rw [hdr]
        exact send) e he
      rw [tline, sent, clock']
      show (s.observed x).line.handOver _ (.trigger (s.observed x).hdr.number _ _ _) 15 = _
      rw [line, hdr]
      rfl
  · intro quiet
    rcases due : s.evaluates with _ | _
    · obtain ⟨-, -, tline⟩ := whenNot due
      exact tline.trans line
    · obtain ⟨tev, -, tline⟩ := whenDue due
      obtain ⟨-, stays⟩ := takeReport_line (s.observed x).reported (s.observed x).reportOf s.tb.state
      refine tline.trans ((stays ?_).trans line)
      rw [← tev]
      show (s.observed x).ev.event ≠ none ∨ (s.observed x).hdr.params.send = false ∨ _
      rw [ev, hdr]
      exact quiet
  · rw [levels]
    split <;> rfl
  · have hx : (s.values x)[i]? = some v.toInt := by
      unfold State.values
      rw [List.getElem?_map, hv]
      rfl
    obtain ⟨c', hc', window, sumSq, clips⟩ := chans_get hc hx s.evaluates (s.observed x).reportOf
    obtain ⟨newest, sum, count⟩ := c.take_spec v.toInt hw
    refine ⟨c', ?_, window.trans newest, fun h => ?_, fun h => ?_⟩
    · rw [levels]
      exact hc'
    · rw [sumSq, window]
      exact sum h
    · rw [clips, window]
      exact count h
  · obtain ⟨ev', cap', -⟩ := whenNot between
    have slots : (s.takeInstant ⟨x, none⟩).cap.slots =
        s.cap.slots.map fun sl => if sl.running then (sl.take (s.fitted x) s.store).1 else sl := by
      rw [cap', cap]
      exact takeSlots_map ..
    refine ⟨ev'.trans ev, ?_, fun i sl hsl => ?_⟩
    · rw [slots, List.length_map]
    · rw [slots, List.getElem?_map, hsl]
      exact ⟨fun still => congrArg some (if_neg (by rw [still]; decide)), fun running => congrArg some (if_pos running)⟩

end Sys2Proof.Machine
end

section
/-!
PROOF. The page map (R121), and a page write that mismatches (R133, R134).
-/

namespace Sys2Proof.Machine

/-! ## The page map (R121) -/

section
variable {st : Store} {p : Nat}

theorem pageState_unused (h : p ∉ st.used) : st.pageState p = if st.bad.contains p then .bad else .free := by
  have free : (st.dir.find? fun e => e.img.pages.contains p) = none :=
    List.find?_eq_none.2 fun e he hp => h (Store.mem_used.2 ⟨e, he, by simpa using hp⟩)
  unfold Store.pageState
  rw [free]

theorem pageState_used (h : p ∈ st.used) : ∃ e ∈ st.dir, p ∈ e.img.pages ∧ st.pageState p = .inUse e.index := by
  rcases hf : st.dir.find? fun e => e.img.pages.contains p with _ | e
  · obtain ⟨e, he, hp⟩ := Store.mem_used.1 h
    exact absurd (by simpa using hp) (List.find?_eq_none.1 hf e he)
  · refine ⟨e, List.mem_of_find?_eq_some hf, by simpa using List.find?_some hf, ?_⟩
    unfold Store.pageState
    rw [hf]

/-- A page that no other entry owns is IN USE by its owner. -/
theorem pageState_owner (distinct : st.used.Nodup) {e : Entry} (he : e ∈ st.dir) (hp : p ∈ e.img.pages) :
    st.pageState p = .inUse e.index := by
  obtain ⟨x, hx, hpx, state⟩ := pageState_used (Store.mem_used.2 ⟨e, he, hp⟩)
  rw [state, eq_of_mem_pages distinct hx he hpx hp]

theorem pageState_bad (h : p ∉ st.used) (bad : p ∈ st.bad) : st.pageState p = .bad := by
  rw [pageState_unused h]
  exact if_pos (by simpa using bad)

theorem pageState_inUse_iff : (∃ i, st.pageState p = .inUse i) ↔ p ∈ st.used := by
  refine ⟨fun ⟨i, hi⟩ => ?_, fun h => ?_⟩
  · by_contra h
    rw [pageState_unused h] at hi
    split at hi <;> cases hi
  · obtain ⟨e, -, -, state⟩ := pageState_used h
    exact ⟨e.index, state⟩

theorem pageState_bad_iff : st.pageState p = .bad ↔ p ∈ st.bad ∧ p ∉ st.used := by
  refine ⟨fun state => ?_, fun ⟨bad, free⟩ => pageState_bad free bad⟩
  by_cases h : p ∈ st.used
  · obtain ⟨e, -, -, used⟩ := pageState_used h
    rw [used] at state
    cases state
  · rw [pageState_unused h] at state
    refine ⟨?_, h⟩
    by_contra good
    rw [if_neg (by simpa using good)] at state
    cases state

theorem pageState_free_iff (data : isDataPage p) : st.pageState p = .free ↔ p ∈ st.freePages := by
  rw [Store.mem_freePages]
  refine ⟨fun state => ?_, fun ⟨_, good, free⟩ => ?_⟩
  · by_cases h : p ∈ st.used
    · obtain ⟨e, -, -, used⟩ := pageState_used h
      rw [used] at state
      cases state
    · refine ⟨data, fun bad => ?_, h⟩
      rw [pageState_bad h bad] at state
      cases state
  · rw [pageState_unused free]
    exact if_neg (by simpa using good)

end

theorem dataPageList_length : dataPageList.length = 1920 := by
  unfold dataPageList
  rw [List.length_map, List.length_range]
  rfl

/-- FREE, IN USE and BAD pages are the data pages (R121). -/
theorem pages_partition {st : Store} (used : st.used.Nodup) (usedData : ∀ p ∈ st.used, isDataPage p) (bad : st.bad.Nodup)
    (badData : ∀ p ∈ st.bad, isDataPage p) : st.freePages.length + st.used.length + st.badTotal = 1920 := by
  have perm : ((st.freePages ++ st.used) ++ st.bad.filter fun p => !st.used.contains p).Perm dataPageList := by
    refine (List.perm_ext_iff_of_nodup ?_ dataPageList_nodup).2 fun p => ?_
    · refine (st.freePages_nodup.append used fun p hf hu => (Store.mem_freePages.1 hf).2.2 hu).append (bad.filter _) fun p hp hb => ?_
      obtain ⟨hb, hu⟩ := List.mem_filter.1 hb
      rcases List.mem_append.1 hp with hf | hp
      · exact (Store.mem_freePages.1 hf).2.1 hb
      · simp [hp] at hu
    · rw [mem_dataPageList, List.mem_append, List.mem_append, Store.mem_freePages, List.mem_filter]
      refine ⟨fun h => ?_, fun data => ?_⟩
      · rcases h with (⟨data, -⟩ | hu) | ⟨hb, -⟩
        · exact data
        · exact usedData p hu
        · exact badData p hb
      · by_cases hu : p ∈ st.used
        · exact .inl (.inr hu)
        · by_cases hb : p ∈ st.bad
          · exact .inr ⟨hb, by simpa using hu⟩
          · exact .inl (.inl ⟨data, hb, hu⟩)
  have total := perm.length_eq
  rw [List.length_append, List.length_append, dataPageList_length] at total
  exact total

/-! ## A mismatch (R133, R134) -/

/-- The store that lists a page that mismatched. -/
def Store.listing (st : Store) (e : Entry) (pos p : Nat) (second : Bool) (more : List StoreWrite) : Store := { st with
  bad := insertBy id p (st.bad.filter (· != p))
  badCount := st.badCount + 1
  dir := st.dir.map fun x => if x.index == e.index then { x with fails := 1 } else x
  retiring := some ⟨e.index, pos, p, second, false⟩
  writes := [.sys (.bad false) false, .sys (.bad true) false] ++ more }

theorem mismatch_once {st : Store} {e : Entry} (h : e.fails = 0) (pos p : Nat) (bs : List Byte) (next : PageNext) :
    st.mismatch e pos p bs next = st.listing e pos p false (.page e.img.record pos bs next :: st.writes) := by
  unfold Store.mismatch Store.listing
  simp only [h]
  rfl

theorem mismatch_twice {st : Store} {e : Entry} (h : e.fails ≠ 0) (pos p : Nat) (bs : List Byte) (next : PageNext) :
    st.mismatch e pos p bs next = st.listing e pos p true (dropPageWrites e.img.record st.writes) := by
  unfold Store.mismatch Store.listing
  rw [if_neg h, show (e.fails != 0) = true from by simpa using h]
  rfl

theorem listing_used (st : Store) (e : Entry) (pos p : Nat) (second : Bool) (more : List StoreWrite) :
    (st.listing e pos p second more).used = st.used := by
  unfold Store.used Store.listing
  dsimp only
  rw [List.flatMap_map]
  refine List.flatMap_congr fun x _ => ?_
  split <;> rfl

/-- A page that is IN USE adds nothing to the BAD pages. -/
theorem listing_badTotal {st : Store} {p : Nat} (h : p ∈ st.used) (e : Entry) (pos : Nat) (second : Bool) (more : List StoreWrite) :
    (st.listing e pos p second more).badTotal = st.badTotal := by
  unfold Store.badTotal
  rw [listing_used]
  have own : (!st.used.contains p) = false := by simpa using h
  have perm : ((insertBy id p (st.bad.filter (· != p))).filter fun q => !st.used.contains q).Perm
      (st.bad.filter fun q => !st.used.contains q) := by
    refine ((insertBy_perm id p _).filter _).trans ?_
    rw [List.filter_cons_of_neg (by rw [own]; decide), List.filter_filter]
    refine List.Perm.of_eq (List.filter_congr fun q _ => ?_)
    by_cases hq : q = p
    · rw [hq, own]
      rfl
    · simp [hq]
  exact perm.length_eq

/-- What a record's second mismatch tells its producer (R134, R71, R96, R115, R150). -/
theorem recordFailed_tags (s : State) (e : Entry) : let t := s.recordFailed e
    (e.img.tag = .waveform → t = { s with cap := { s.cap with slots := s.cap.slots.filter fun sl => sl.record != e.img.record } }) ∧
    (e.img.tag = .sag → t = { s with ctr := { s.ctr with summariesLost := satAdd s.ctr.summariesLost 1 } }) ∧
    (e.img.tag = .interval → t = { s with ctr := { s.ctr with intervalsLost := satAdd s.ctr.intervalsLost 1 } }) ∧
    (e.img.tag = .note → t = { s with
      notes := s.notes.map fun n => if n.record = some e.img.record then { n with record := none } else n }) := by
  dsimp only
  unfold State.recordFailed
  refine ⟨fun tag => ?_, fun tag => ?_, fun tag => ?_, fun tag => ?_⟩
  · rw [tag]
    rfl
  · rw [tag]
  · rw [tag]
  · rw [tag]
    refine congrArg (fun l => ({ s with notes := l } : State)) (List.map_congr_left fun n _ => ?_)
    by_cases h : n.record = some e.img.record
    · rw [if_pos h, if_pos (by simpa using h)]
    · rw [if_neg h, if_neg (by simpa using h)]

/-- A page write that mismatches, of a position of a FILLING record. -/
theorem exec_pageWriteComplete_mismatch {s : State} {r pos p : Nat} {bs : List Byte} {next : PageNext} {rest : List StoreWrite}
    {e : Entry} (run : s.mode = .running) (due : s.sup.restartDue = none) (sealing : s.sup.sealing = none)
    (here : s.store.writes = .page r pos bs next :: rest) (he : s.store.entryOf r = some e) (filling : e.img.sealed = false)
    (hp : e.img.pages[pos]? = some p) (settled : s.store.settledOk) : exec (.pageWriteComplete false) s =
      .next (State.pageFailed { s with store := { s.store with writes := rest } } e pos p bs next) := by
  have ended : State.pageEnded { s with store := { s.store with writes := rest } } r pos bs next false =
      State.pageFailed { s with store := { s.store with writes := rest } } e pos p bs next := by
    have entry : State.pageEnded { s with store := { s.store with writes := rest } } r pos bs next false =
        State.pageEndedBy { s with store := { s.store with writes := rest } } r pos bs next false (some e) :=
      (pageEnded_eq ..).trans (congrArg _ he)
    rw [entry]
    unfold State.pageEndedBy
    dsimp only
    rw [filling, if_neg (by decide), if_neg (by decide), hp]
  have sup : (State.pageFailed { s with store := { s.store with writes := rest } } e pos p bs next).sup = s.sup := by
    unfold State.pageFailed
    dsimp only
    split
    · rfl
    · unfold State.recordFailed
      split <;> rfl
  exact exec_pageWriteComplete run ((pageDone_front here settled false).trans ended) (by rw [sup]; exact sealing)
    (by rw [sup]; exact due)

end Sys2Proof.Machine
end

section
/-!
PROOF. The retirement of a page whose write failed: its replacement, or the failure of its record (R133, R134).
-/

namespace Sys2Proof.Machine

/-! ## Page lists and writes -/

/-- A page leaves a list that names it once, and another takes its position. -/
theorem filter_insert_eq_set {l : List Nat} (distinct : l.Nodup) {k p : Nat} (h : l[k]? = some p) (q : Nat) :
    (l.filter (· != p)).take k ++ q :: (l.filter (· != p)).drop k = l.set k q := by
  induction l generalizing k with
  | nil => cases h
  | cons a l ih =>
    obtain ⟨apart, distinct⟩ := List.nodup_cons.1 distinct
    rcases k with _ | k
    · obtain rfl : a = p := by simpa using h
      have rest : l.filter (· != a) = l := List.filter_eq_self.2 fun x hx => by
        simp only [bne_iff_ne, ne_eq]
        rintro rfl
        exact apart hx
      rw [List.filter_cons_of_neg (by simp), rest]
      rfl
    · have hl : l[k]? = some p := by simpa using h
      have other : a ≠ p := fun ha => apart (ha ▸ List.mem_of_getElem? hl)
      rw [List.filter_cons_of_pos (by simpa using other)]
      exact congrArg (a :: ·) (ih distinct hl)

theorem filter_twice (l : List Nat) (p : Nat) : (l.filter (· != p)).filter (· != p) = l.filter (· != p) := by
  rw [List.filter_filter]
  exact List.filter_congr fun x _ => Bool.and_self _

/-- The writes of the BAD list that are left stand before the repeat. -/
theorem split_writes {ws later : List StoreWrite} {w : StoreWrite} (h : ∀ x ∈ ws, x.isSys = true) (hw : w.isSys = false) :
    (ws ++ w :: later).takeWhile StoreWrite.isSys = ws ∧ (ws ++ w :: later).dropWhile StoreWrite.isSys = w :: later := by
  induction ws with
  | nil => exact ⟨List.takeWhile_cons_of_neg (by rw [hw]; decide), List.dropWhile_cons_of_neg (by rw [hw]; decide)⟩
  | cons x ws ih =>
    obtain ⟨here, rest⟩ := List.forall_mem_cons.1 h
    obtain ⟨take, drop⟩ := ih rest
    rw [List.cons_append, List.takeWhile_cons_of_pos here, List.dropWhile_cons_of_pos here, take, drop]
    exact ⟨rfl, rfl⟩

/-- The store whose queue ends before the first write that is no system write. -/
def Store.firstWrites (st : Store) : Store := { st with writes := st.writes.takeWhile StoreWrite.isSys }

/-! ## The entry of the page -/

/-- An entry that gives up the page of a failed write. -/
def Retiring.leaves (x : Retiring) (e : Entry) : Entry := { e with img := { e.img with pages := e.img.pages.filter (· != x.page) } }

section
variable {st : Store} {x : Retiring} {e : Entry} (he : e ∈ st.dir) (hi : e.index = x.entry) (distinct : (st.dir.map (·.index)).Nodup)
include he hi distinct

theorem withoutPage_find (f : Entry → Entry) (same : ∀ y, (f y).index = y.index) {c : Entry → Bool} (hc : c (f e) = true) :
    ((st.dir.map fun y => if y.index == x.entry then f y else y).find? fun y => y.index == x.entry && c y) = some (f e) := by
  have image {y : Entry} (hy : y ∈ st.dir) (h : (if y.index == x.entry then f y else y).index = x.entry) : y = e := by
    refine eq_of_index distinct hy he (hi ▸ ?_)
    by_cases hx : y.index = x.entry
    · exact hx
    · rwa [if_neg (by simpa using hx)] at h
  have own : (if e.index == x.entry then f e else e) = f e := if_pos (by simpa using hi)
  rcases hf : (st.dir.map fun y => if y.index == x.entry then f y else y).find? fun y => y.index == x.entry && c y with _ | z
  · refine absurd (List.find?_eq_none.1 hf (f e) (List.mem_map.2 ⟨e, he, own⟩)) ?_
    simp [same, hi, hc]
  · obtain ⟨y, hy, hz⟩ := List.mem_map.1 (List.mem_of_find?_eq_some hf)
    have found := List.find?_some hf
    simp only [Bool.and_eq_true, beq_iff_eq] at found
    obtain rfl := image hy (by rw [hz]; exact found.1)
    rw [← own, hz]
    exact hf

theorem withoutPage_entry (filling : e.img.sealed = false) :
    ((st.withoutPage x).dir.find? fun y => y.index == x.entry && !y.img.sealed) = some (x.leaves e) :=
  withoutPage_find he hi distinct x.leaves (fun _ => rfl) (c := fun y => !y.img.sealed) (by
    show (!e.img.sealed) = true
    rw [filling]
    rfl)

/-- Without a replacement the record fails (R134). -/
theorem settleRetiring_fails (filling : e.img.sealed = false)
    (none' : x.second = true ∨ Store.replacement (st.withoutPage x).firstWrites = none) :
    st.settleRetiring x = (Store.fail { st.withoutPage x with retiring := none } (x.leaves e) x.position x.page,
      some (x.leaves e), []) := by
  have entry := withoutPage_entry he hi distinct filling
  unfold Store.firstWrites at none'
  unfold Store.withoutPage at entry none'
  dsimp only at none'
  unfold Store.settleRetiring
  dsimp only
  rw [entry]
  dsimp only
  by_cases second : x.second = true
  · exact if_pos second
  · rw [if_neg second]
    rw [none'.resolve_left second]
    rfl

/-- A replacement takes the page's position (R133 steps 3 and 4). -/
theorem settleRetiring_replaces (filling : e.img.sealed = false) (once : x.second = false) {st' : Store} {q : Nat} {es : List Entry}
    (some' : Store.replacement (st.withoutPage x).firstWrites = some (st', q, es)) :
    st.settleRetiring x = ({ st'.replace x.entry x.position q with
      writes := (st'.replace x.entry x.position q).writes ++ st.writes.dropWhile StoreWrite.isSys
      retiring := some { x with listed := true } }, none, es) := by
  have entry := withoutPage_entry he hi distinct filling
  unfold Store.firstWrites at some'
  unfold Store.withoutPage at entry some'
  dsimp only at some'
  unfold Store.settleRetiring
  dsimp only
  rw [entry]
  dsimp only
  rw [if_neg (by rw [once]; decide)]
  rw [some']
  rfl

end

/-! ## What every retirement leaves -/

theorem settleRetiring_region (st : Store) (x : Retiring) : (st.settleRetiring x).1.nv = st.nv ∧ (st.settleRetiring x).1.bad = st.bad := by
  rcases st.settleRetiring_cases x with out | ⟨e, -, -, -, out⟩ | ⟨es, p, ws, ws', -, -, -, out⟩
  · rw [out]
    exact ⟨rfl, rfl⟩
  · rw [out]
    unfold Store.fail
    split <;> exact ⟨rfl, rfl⟩
  · rw [out]
    exact ⟨Store.reclaim_nv .., Store.reclaim_bad ..⟩

section
variable {st : Store} {x : Retiring} {e : Entry} (he : e ∈ st.dir) (hi : e.index = x.entry) (hp : x.page ∈ e.img.pages)
include he hi hp

/-- The page has left its only page list. -/
theorem withoutPage_unused (distinct : st.used.Nodup) : x.page ∉ (st.withoutPage x).used := fun h => by
  obtain ⟨y', hy', hpy⟩ := Store.mem_used.1 h
  obtain ⟨y, hy, rfl⟩ := List.mem_map.1 hy'
  by_cases own : y.index = x.entry
  · rw [if_pos (by simpa using own)] at hpy
    simpa using (List.mem_filter.1 hpy).2
  · rw [if_neg (by simpa using own)] at hpy
    rw [eq_of_mem_pages distinct hy he hpy hp] at own
    exact own hi

/-- It is IN USE no more, whatever becomes of its record. -/
theorem settleRetiring_unused (distinct : st.used.Nodup) (bad : x.page ∈ st.bad) : x.page ∉ (st.settleRetiring x).1.used := by
  have gone : x.page ∉ (st.withoutPage x).used := withoutPage_unused he hi hp distinct
  have within {u : Store} (h : ∀ y ∈ u.dir, ∃ z ∈ (st.withoutPage x).dir, y.img.pages ⊆ z.img.pages) : x.page ∉ u.used := fun hu => by
    obtain ⟨y, hy, hpy⟩ := Store.mem_used.1 hu
    obtain ⟨z, hz, sub⟩ := h y hy
    exact gone (Store.mem_used.2 ⟨z, hz, sub hpy⟩)
  rcases st.settleRetiring_cases x with out | ⟨y, hy, -, -, out⟩ | ⟨es, p, ws, ws', -, free, -, out⟩
  · rw [out]
    exact gone
  · rw [out]
    unfold Store.fail
    split
    · refine within fun z hz => ?_
      obtain ⟨w, hw, rfl⟩ := List.mem_map.1 hz
      refine ⟨w, hw, fun q hq => ?_⟩
      split at hq
      · exact List.mem_of_mem_filter hq
      · exact hq
    · exact within fun z hz => ⟨z, (List.mem_filter.1 hz).1, List.Subset.refl _⟩
  · rw [out]
    obtain ⟨-, good, -⟩ := Store.mem_freePages.1 free
    have other : x.page ≠ p := fun h => good (by rw [Store.reclaim_bad, ← h]; exact bad)
    intro hu
    obtain ⟨z, hz, hpz⟩ := Store.mem_used.1 hu
    obtain ⟨w, hw, rfl⟩ := List.mem_map.1 hz
    obtain ⟨hw, -⟩ := Store.mem_reclaim.1 hw
    refine gone (Store.mem_used.2 ⟨w, hw, ?_⟩)
    split at hpz
    · rcases List.mem_append.1 hpz with h | h
      · exact List.mem_of_mem_take h
      · exact List.mem_of_mem_drop ((List.mem_cons.1 h).resolve_left other)
    · exact hpz

end

/-! ## What a retirement makes of the directory and the queue -/

/-- Two changes of one entry, one after the other. -/
theorem map_at_twice {l : List Entry} {i : Nat} {f g : Entry → Entry} (same : ∀ y, (f y).index = y.index) :
    (l.map fun y => if y.index == i then f y else y).map (fun y => if y.index == i then g y else y) =
      l.map fun y => if y.index == i then g (f y) else y := by
  rw [List.map_map]
  refine List.map_congr_left fun y _ => ?_
  rw [Function.comp_apply]
  by_cases h : y.index = i
  · simp [h, same]
  · simp [h]

/-- The entries of other numbers after a change of one. -/
theorem filter_map_at {l : List Entry} {i : Nat} {f : Entry → Entry} (same : ∀ y, (f y).index = y.index) :
    (l.map fun y => if y.index == i then f y else y).filter (fun y => y.index != i) = l.filter fun y => y.index != i := by
  induction l with
  | nil => rfl
  | cons y l ih =>
    rw [List.map_cons]
    by_cases h : y.index = i
    · rw [List.filter_cons_of_neg (by simp [h, same]), List.filter_cons_of_neg (by simp [h]), ih]
    · rw [List.filter_cons_of_pos (by simp [h]), List.filter_cons_of_pos (by simp [h]), ih, if_neg (by simpa using h)]

section
variable {st : Store} {x : Retiring} {e : Entry} (he : e ∈ st.dir) (hi : e.index = x.entry) (distinct : (st.dir.map (·.index)).Nodup)
include he hi distinct

/-- A change of the entry in place, of its record number kept, is written as the record's. -/
theorem find_changed {f : Entry → Entry} (same : ∀ y, (f y).index = y.index) (record : ∀ y, (f y).img.record = y.img.record) :
    ((st.dir.map fun y => if y.index == x.entry then f y else y).find? fun y => y.index == x.entry).map (·.img.record) =
      some e.img.record := by
  have found := withoutPage_find he hi distinct f same (c := fun _ => true) rfl
  simp only [Bool.and_true] at found
  rw [found]
  exact congrArg some (record e)

theorem map_at_entry {f g : Entry → Entry} (h : f e = g e) :
    (st.dir.map fun y => if y.index == x.entry then f y else y) = st.dir.map fun y => if y.index == x.entry then g y else y := by
  refine List.map_congr_left fun y hy => ?_
  by_cases hx : y.index = x.entry
  · obtain rfl : y = e := eq_of_index distinct hy he (hx.trans hi.symm)
    rw [h]
  · rw [if_neg (by simpa using hx), if_neg (by simpa using hx)]

/-- A replacement `q` in the position of the page. -/
theorem replace_spec {st' : Store} (dir : st'.dir = (st.withoutPage x).dir) (hp : e.img.pages[x.position]? = some x.page)
    (pages : e.img.pages.Nodup) (q : Nat) :
    (st'.replace x.entry x.position q).dir = (st.dir.map fun y =>
      if y.index == x.entry then { y with img := { y.img with pages := y.img.pages.set x.position q } } else y) ∧
    (st'.replace x.entry x.position q).writes = st'.writes ++ [.sys (.entry x.entry (some e.img.record)) false] := by
  have change : (st'.replace x.entry x.position q).dir = st.dir.map fun y => if y.index == x.entry then
      { x.leaves y with img := { (x.leaves y).img with
        pages := (x.leaves y).img.pages.take x.position ++ q :: (x.leaves y).img.pages.drop x.position } } else y := by
    show st'.dir.map _ = _
    rw [dir]
    exact map_at_twice (f := x.leaves) fun _ => rfl
  refine ⟨change.trans (map_at_entry he hi distinct ?_), ?_⟩
  · exact congrArg (fun l => ({ e with img := { e.img with pages := l } } : Entry)) (filter_insert_eq_set pages hp q)
  · have record : ((st'.replace x.entry x.position q).dir.find? fun y => y.index == x.entry).map (·.img.record) =
        some e.img.record := by
      rw [change]
      exact find_changed he hi distinct (fun _ => rfl) fun _ => rfl
    show st'.writes ++ [.sys (.entry x.entry (((st'.replace x.entry x.position q).dir.find? fun y => y.index == x.entry).map
      (·.img.record))) false] = _
    rw [record]

/-- The failure of a WAVEFORM beyond its header page (R134, R136). -/
theorem fail_seals (wave : e.img.tag = .waveform) (pos : 0 < x.position) :
    let out := Store.fail { st.withoutPage x with retiring := none } (x.leaves e) x.position x.page
    out.dir = (st.dir.map fun y => if y.index == x.entry then { y with
      img := { y.img with sealed := true, outcome := .storeError, pages := y.img.pages.filter (· != x.page) }
      keep := some x.position } else y) ∧
    out.writes = dropPageWrites e.img.record st.writes ++ [.sys (.entry x.entry (some e.img.record)) false] := by
  intro out
  have dir : out.dir = st.dir.map fun y => if y.index == x.entry then { x.leaves y with
      img := { (x.leaves y).img with
        sealed := true, outcome := .storeError, pages := (x.leaves y).img.pages.filter (· != x.page) }
      keep := some x.position } else y := by
    have goes : out.dir = (st.withoutPage x).dir.map fun y => if y.index == e.index then { y with
        img := { y.img with sealed := true, outcome := .storeError, pages := y.img.pages.filter (· != x.page) }
        keep := some x.position } else y := congrArg Store.dir (if_pos ⟨wave, pos⟩)
    rw [goes, hi]
    exact map_at_twice (f := x.leaves) (g := fun y => { y with
        img := { y.img with sealed := true, outcome := .storeError, pages := y.img.pages.filter (· != x.page) }
        keep := some x.position }) fun _ => rfl
  refine ⟨dir.trans (map_at_entry he hi distinct ?_), ?_⟩
  · exact congrArg (fun l => ({ e with
      img := { e.img with sealed := true, outcome := .storeError, pages := l }, keep := some x.position } : Entry)) (filter_twice ..)
  · have record : (out.dir.find? fun y => y.index == x.entry).map (·.img.record) = some e.img.record := by
      rw [dir]
      exact find_changed he hi distinct (fun _ => rfl) fun _ => rfl
    have written : out.writes = dropPageWrites e.img.record st.writes ++
        [.sys (.entry e.index ((out.dir.find? fun y => y.index == e.index).map (·.img.record))) false] := by
      show (Store.fail _ (x.leaves e) x.position x.page).writes = _ ++ [.sys (.entry e.index (((Store.fail _ (x.leaves e) x.position
        x.page).dir.find? fun y => y.index == e.index).map (·.img.record))) false]
      unfold Store.fail
      rw [if_pos ⟨wave, pos⟩]
      rfl
    rw [written, hi, record]

omit he distinct in
/-- The failure of any other record (R134). -/
theorem fail_removes (other : ¬(e.img.tag = .waveform ∧ 0 < x.position)) :
    let out := Store.fail { st.withoutPage x with retiring := none } (x.leaves e) x.position x.page
    out.dir = (st.dir.filter fun y => y.index != x.entry) ∧
    out.writes = dropPageWrites e.img.record st.writes ++ [.sys (.entry x.entry none) false] := by
  intro out
  have dir : out.dir = st.dir.filter fun y => y.index != x.entry := by
    have goes : out.dir = (st.withoutPage x).dir.filter fun y => y.index != e.index := congrArg Store.dir (if_neg other)
    rw [goes, hi]
    exact filter_map_at (f := x.leaves) fun _ => rfl
  refine ⟨dir, ?_⟩
  have none' : (out.dir.find? fun y => y.index == x.entry) = none := by
    rw [dir]
    refine List.find?_eq_none.2 fun y hy h => ?_
    have apart := (List.mem_filter.1 hy).2
    simp only [beq_iff_eq] at h
    simp [h] at apart
  have written : out.writes = dropPageWrites e.img.record st.writes ++
      [.sys (.entry e.index ((out.dir.find? fun y => y.index == e.index).map (·.img.record))) false] := by
    show (Store.fail _ (x.leaves e) x.position x.page).writes = _ ++ [.sys (.entry e.index (((Store.fail _ (x.leaves e) x.position
      x.page).dir.find? fun y => y.index == e.index).map (·.img.record))) false]
    unfold Store.fail
    rw [if_neg (show ¬((x.leaves e).img.tag = .waveform ∧ 0 < x.position) from other)]
    rfl
  rw [written, hi, none']
  rfl

end

/-! ## Whether a replacement can be had (R133 step 3) -/

theorem withoutPage_freePages {st : Store} {x : Retiring} (bad : x.page ∈ st.bad) : (st.withoutPage x).firstWrites.freePages = st.freePages := by
  unfold Store.freePages
  dsimp only
  refine List.filter_congr fun p _ => ?_
  by_cases hp : p = x.page
  · have listed : st.bad.contains p = true := by
      rw [hp]
      simpa using bad
    show (!st.bad.contains p && _) = (!st.bad.contains p && _)
    rw [listed]
    rfl
  · have same : p ∈ (st.withoutPage x).used ↔ p ∈ st.used := by
      rw [Store.mem_used, Store.mem_used]
      constructor
      · rintro ⟨y', hy', hpy⟩
        obtain ⟨y, hy, rfl⟩ := List.mem_map.1 hy'
        refine ⟨y, hy, ?_⟩
        split at hpy
        · exact List.mem_of_mem_filter hpy
        · exact hpy
      · rintro ⟨y, hy, hpy⟩
        refine ⟨_, List.mem_map.2 ⟨y, hy, rfl⟩, ?_⟩
        split
        · exact List.mem_filter.2 ⟨hpy, by simpa using hp⟩
        · exact hpy
    show (!st.bad.contains p && !(st.withoutPage x).used.contains p) = (!st.bad.contains p && !st.used.contains p)
    simp only [List.contains_eq_mem, same]

theorem replacement_free {st : Store} {q : Nat} (h : st.freePages.head? = some q) : st.replacement = some (st, q, []) := by
  have enough : chooseReclaim 1 st.freePages.length true st.candidates = some [] := by
    have long : 1 ≤ st.freePages.length := by
      rcases hf : st.freePages with _ | ⟨a, l⟩
      · rw [hf] at h
        cases h
      · simp
    unfold chooseReclaim
    exact if_pos (by simpa using long)
  unfold Store.replacement
  rw [enough]
  show (st.freePages.head?.map fun p => (st, p, ([] : List Entry))) = _
  rw [h]
  rfl

theorem replacement_none {st : Store} (free : st.freePages = []) (candidates : st.candidates = []) : st.replacement = none := by
  have short : chooseReclaim 1 st.freePages.length true st.candidates = none := by
    rw [free, candidates]
    rfl
  unfold Store.replacement
  rw [short]

theorem withoutPage_candidates {st : Store} {x : Retiring} (h : st.candidates = []) : (st.withoutPage x).firstWrites.candidates = [] := by
  refine List.eq_nil_iff_forall_not_mem.2 fun y' hy' => ?_
  obtain ⟨hy', whole, free⟩ := Store.mem_candidates.1 hy'
  obtain ⟨y, hy, rfl⟩ := List.mem_map.1 hy'
  have same : y.img.sealed = true ∧ y.pins = 0 := by
    split at whole
    · rename_i own
      rw [if_pos own] at free
      exact ⟨whole, free⟩
    · rename_i own
      rw [if_neg own] at free
      exact ⟨whole, free⟩
  have mem := Store.mem_candidates.2 ⟨hy, same.1, same.2⟩
  rw [h] at mem
  cases mem

end Sys2Proof.Machine
end

section
/-!
PROOF. A page whose write fails, from the mismatch to the retirement.
-/

namespace Sys2Proof.Machine

/-! ## The command that ends the BAD list's write -/

theorem Counters.reclaimed_nil {c : Counters} (h : c.ok) : c.reclaimed [] = c := by
  obtain ⟨-, lost, -, -, -, -, -, -, -, -, -, reclaimed, -⟩ := (Counters.ok_iff c).1 h
  have count : satAdd c.recordsReclaimed 0 = c.recordsReclaimed := Nat.min_eq_left reclaimed
  have sags : satAdd c.summariesLost 0 = c.summariesLost := Nat.min_eq_left lost
  show ({ c with recordsReclaimed := satAdd c.recordsReclaimed 0, summariesLost := satAdd c.summariesLost 0 } : Counters) = c
  rw [count, sags]

theorem told_frame (s : State) (second : Bool) (o : Option Entry) : let t := s.told second o
    t.store = s.store ∧ t.line = s.line ∧ t.hdr = s.hdr ∧ t.ev = s.ev ∧ t.sup = s.sup := by
  dsimp only
  rcases o with _ | e
  · exact ⟨rfl, rfl, rfl, rfl, rfl⟩
  · cases second
    · show (s.recordFailed e).store = _ ∧ (s.recordFailed e).line = _ ∧ (s.recordFailed e).hdr = _ ∧ (s.recordFailed e).ev = _ ∧
        (s.recordFailed e).sup = _
      unfold State.recordFailed
      split <;> exact ⟨rfl, rfl, rfl, rfl, rfl⟩
    · exact ⟨rfl, rfl, rfl, rfl, rfl⟩

/-- A copy of the BAD list is verified, or copy B is given up: the page that waits is retired (R133). -/
theorem exec_systemWriteComplete_retires {s : State} {x : Retiring} {ok copy retried : Bool} {rest : List StoreWrite}
    (run : s.mode = .running) (due : s.sup.restartDue = none) (opening : s.sup.opening = none) (wait : s.sup.parkWait = false)
    (sealing : s.sup.sealing = none) (here : s.store.writes = .sys (.bad copy) retried :: rest)
    (ends : ok = true ∨ (copy = true ∧ retried = true)) (hx : s.store.retiring = some x) (hl : x.listed = false) :
    ∃ nv draws, (ok = true → nv = s.store.written (.bad copy)) ∧ nv.mem = s.store.nv.mem ∧
      exec (.systemWriteComplete ok) s =
        .next (State.retired { s with store := { s.store with writes := rest, nv := nv, draws := draws } } x) := by
  have goes {st : Store} (hst : st.retiring = some x) {verified : Bool} (hv : verified = true ∨ copy = true) :
      State.sysEnded { s with store := st } (.bad copy) verified = State.retired { s with store := st } x := by
    let u : State := { s with store := st }
    obtain ⟨-, -, -, -, sup⟩ := told_frame { u with
      store := (st.settleRetiring x).1
      ctr := { s.ctr with badPages := satAdd s.ctr.badPages 1 }.reclaimed (st.settleRetiring x).2.2 } x.second (st.settleRetiring x).2.1
    have quiet : (u.retired x).sup.quiet := by
      rw [show (u.retired x).sup = s.sup from sup]
      exact ⟨opening, wait⟩
    have settles : State.sysEnded u (.bad copy) verified = u.settleRetiring := if_pos (by rcases hv with h | h <;> simp [h])
    rw [settles, settleRetiring_retired hst hl, afterPage_quiet quiet, ite_self]
  have sup (st : Store) : (State.retired { s with store := st } x).sup = s.sup := (told_frame ..).2.2.2.2
  obtain ⟨nv, draws, whole, mem, done⟩ : ∃ nv draws, (ok = true → nv = s.store.written (.bad copy)) ∧ nv.mem = s.store.nv.mem ∧
      s.sysDone ok = State.retired { s with store := { s.store with writes := rest, nv := nv, draws := draws } } x := by
    cases ok
    · obtain ⟨rfl, rfl⟩ := ends.resolve_left (by decide)
      obtain ⟨nv, torn, -, mem, -⟩ := Store.tearSys_spec { s.store with writes := rest } (.bad true)
      refine ⟨nv, s.store.draws + 1, nofun, mem, ?_⟩
      rw [sysDone_front here false, if_neg (by decide), if_pos rfl, torn]
      exact goes (st := { s.store with writes := rest, nv := nv, draws := s.store.draws + 1 }) (by exact hx) (.inr rfl)
    · refine ⟨s.store.written (.bad copy), s.store.draws, fun _ => rfl, s.store.written_mem (.bad copy), ?_⟩
      rw [sysDone_front here true, if_pos rfl]
      exact goes (st := { s.store with writes := rest, nv := s.store.written (.bad copy) }) (by exact hx) (.inl rfl)
  refine ⟨nv, draws, whole, mem, exec_systemWriteComplete run done ?_ ?_⟩
  · rw [sup]
    exact sealing
  · rw [sup]
    exact due

/-- Settles O34: the page map (`pages_partition`), the mismatch (`exec_pageWriteComplete_mismatch`), and the retirement
(`exec_systemWriteComplete_retires`, `settleRetiring_replaces`, `settleRetiring_fails`). -/
theorem failedPageIsReplaced : Obligations.FailedPageIsReplaced := by
  unfold Obligations.FailedPageIsReplaced
  refine ⟨fun st used usedData bad badData => ⟨pages_partition used usedData bad badData, fun p data =>
      ⟨pageState_free_iff data, pageState_bad_iff, pageState_inUse_iff⟩⟩,
    fun s r pos p bs next rest e run due sealing here he filling hp settled => ?_, fun s rest run due sealing here => ?_,
    fun s x e ok copy retried ws more run due opening wait sealing counters here ends hx hl he hi distinct filling hp pages bad => ?_⟩
  · intro bad copies listed
    obtain ⟨hd, rfl⟩ := Store.entryOf_some he
    have fails := exec_pageWriteComplete_mismatch run due sealing here he filling hp settled
    refine ⟨fun once => fails.trans (congrArg _ ?_), fun again => ?_⟩
    · unfold State.pageFailed
      rw [mismatch_once once]
      exact if_pos once
    · have page : p ∈ e.img.pages := List.mem_of_getElem? hp
      let u : State := { s with store := listed true (dropPageWrites e.img.record rest) }
      have told : State.pageFailed { s with store := { s.store with writes := rest } } e pos p bs next = u.recordFailed e := by
        unfold State.pageFailed
        rw [mismatch_twice again]
        exact if_neg again
      rw [told] at fails
      have store : (u.recordFailed e).store = listed true (dropPageWrites e.img.record rest) := recordFailed_store ..
      have frame : (u.recordFailed e).line = s.line ∧ (u.recordFailed e).hdr = s.hdr ∧ (u.recordFailed e).ev = s.ev ∧
          (u.recordFailed e).rep = s.rep ∧ (u.recordFailed e).sup = s.sup := by
        unfold State.recordFailed
        split <;> exact ⟨rfl, rfl, rfl, rfl, rfl⟩
      obtain ⟨line, hdr, ev, rep, sup⟩ := frame
      obtain ⟨wave, sag, interval, note⟩ := recordFailed_tags u e
      refine ⟨_, fails, store, ?_, fun nodup => ?_, line, hdr, ev, rep, sup, fun tag => ?_, fun tag => ?_, fun tag => ?_, fun tag => ?_⟩
      · rw [store]
        exact listing_badTotal (Store.mem_used.2 ⟨e, hd, page⟩) e pos true _
      · rw [store]
        have used := listing_used s.store e pos p true (dropPageWrites e.img.record rest)
        exact pageState_owner (st := s.store.listing e pos p true (dropPageWrites e.img.record rest)) (by rw [used]; exact nodup)
          (e := { e with fails := 1 }) (List.mem_map.2 ⟨e, hd, if_pos (beq_self_eq_true _)⟩) page
      · rw [wave tag]
        exact ⟨rfl, rfl, rfl⟩
      · rw [sag tag]
        exact ⟨rfl, rfl, rfl⟩
      · rw [interval tag]
        exact ⟨rfl, rfl, rfl⟩
      · rw [note tag]
        exact ⟨rfl, rfl, rfl⟩
  · obtain ⟨nv, torn, -⟩ := Store.tearSys_spec { s.store with writes := rest } (.bad false)
    have done : s.sysDone false = { s with store := Store.tearSys { s.store with writes := rest } (.bad false) } :=
      (sysDone_front here false).trans ((if_neg (by decide)).trans ((if_pos rfl).trans rfl))
    refine ⟨_, exec_systemWriteComplete run done sealing due, ?_⟩
    rw [torn]
    exact ⟨rfl, rfl, rfl, rfl, rfl⟩
  · obtain ⟨nv, draws, whole, mem, retires⟩ :=
      exec_systemWriteComplete_retires run due opening wait sealing here ends hx hl
    let st : Store := { s.store with writes := ws ++ more, nv := nv, draws := draws }
    let out := st.settleRetiring x
    let u : State := { s with
      store := out.1, ctr := { s.ctr with badPages := satAdd s.ctr.badPages 1 }.reclaimed out.2.2 }
    have page : x.page ∈ e.img.pages := List.mem_of_getElem? hp
    obtain ⟨store, line, hdr, ev, -⟩ := told_frame u x.second out.2.1
    obtain ⟨region, bads⟩ := settleRetiring_region st x
    have counted : ({ s.ctr with badPages := satAdd s.ctr.badPages 1 } : Counters).reclaimed [] =
        { s.ctr with badPages := satAdd s.ctr.badPages 1 } := by
      refine Counters.reclaimed_nil ?_
      rw [Counters.ok_iff] at counters ⊢
      simp [satAdd] at counters ⊢
      tauto
    have fails (h : x.second = true ∨ (s.store.freePages = [] ∧ s.store.candidates = [])) :
        out = (Store.fail { st.withoutPage x with retiring := none } (x.leaves e) x.position x.page, some (x.leaves e), []) :=
      settleRetiring_fails he hi distinct filling (h.imp id fun ⟨free, candidates⟩ =>
        replacement_none ((withoutPage_freePages (st := st) bad).trans free) (withoutPage_candidates (st := st) candidates))
    refine ⟨u.told x.second out.2.1, retires, ?_, ?_, fun h => ?_, line, hdr, ev, fun nodup => ?_,
      fun r pos bs next later q once system hmore free => ?_, fun h => ?_, fun once free candidates => ?_⟩
    · rw [store]
      exact bads
    · rw [store]
      exact (congrArg Region.mem region).trans mem
    · rw [store]
      exact region.trans (whole h)
    · rw [store]
      refine pageState_bad (settleRetiring_unused (st := st) he hi page nodup bad) ?_
      rw [show u.store.bad = st.bad from bads]
      exact bad
    · subst hmore
      have split := split_writes (later := later) (w := .page r pos bs next) system rfl
      have found := replacement_free ((congrArg List.head? (withoutPage_freePages (st := st) bad)).trans free)
      have replaced : out = _ := settleRetiring_replaces (st := st) he hi distinct filling once found
      obtain ⟨dir, writes⟩ := replace_spec (st := st) he hi distinct (st' := (st.withoutPage x).firstWrites) rfl hp pages q
      have told : u.told x.second out.2.1 = u := by
        rw [replaced]
        rfl
      rw [told]
      have ustore : u.store = _ := congrArg Prod.fst replaced
      rw [ustore]
      refine ⟨dir, ?_, rfl, rfl, rfl, ?_⟩
      · refine (congrArg (· ++ st.writes.dropWhile StoreWrite.isSys) writes).trans ?_
        show ((ws ++ .page r pos bs next :: later).takeWhile StoreWrite.isSys ++ _) ++
          (ws ++ .page r pos bs next :: later).dropWhile StoreWrite.isSys = _
        rw [split.1, split.2, List.append_assoc]
        rfl
      · show ({ s.ctr with badPages := satAdd s.ctr.badPages 1 } : Counters).reclaimed out.2.2 = _
        rw [replaced]
        exact counted
    · have failed := fails h
      have ustore : u.store = _ := congrArg Prod.fst failed
      rw [store, ustore]
      refine ⟨?_, fun tag pos => fail_seals he hi distinct tag pos, fun other => fail_removes hi fun hh => ?_, fun second => ?_⟩
      · unfold Store.fail
        split <;> rfl
      · rcases other with tag | zero
        · exact tag hh.1
        · rw [zero] at hh
          exact absurd hh.2 (Nat.lt_irrefl 0)
      · rw [told_second second]
        refine ⟨rfl, rfl, ?_⟩
        show ({ s.ctr with badPages := satAdd s.ctr.badPages 1 } : Counters).reclaimed out.2.2 = _
        rw [failed]
        exact counted
    · have failed := fails (.inr ⟨free, candidates⟩)
      have ctr : u.ctr = { s.ctr with badPages := satAdd s.ctr.badPages 1 } := by
        show ({ s.ctr with badPages := satAdd s.ctr.badPages 1 } : Counters).reclaimed out.2.2 = _
        rw [failed]
        exact counted
      have told : u.told x.second out.2.1 = u.recordFailed (x.leaves e) := by
        rw [show out.2.1 = some (x.leaves e) from congrArg (fun o => o.2.1) failed]
        exact if_neg (by rw [once]; decide)
      rw [told]
      obtain ⟨wave, sag, interval, note⟩ := recordFailed_tags u (x.leaves e)
      refine ⟨fun tag => ?_, fun tag => ?_, fun tag => ?_, fun tag => ?_⟩
      · rw [wave tag]
        exact ⟨rfl, rfl, ctr⟩
      · rw [sag tag]
        refine ⟨rfl, rfl, ?_⟩
        show ({ u.ctr with summariesLost := satAdd u.ctr.summariesLost 1 } : Counters) = _
        rw [ctr]
      · rw [interval tag]
        refine ⟨rfl, rfl, ?_⟩
        show ({ u.ctr with intervalsLost := satAdd u.ctr.intervalsLost 1 } : Counters) = _
        rw [ctr]
      · rw [note tag]
        exact ⟨rfl, ctr, rfl⟩

end Sys2Proof.Machine
end

section
/-!
PROOF. A PRINT REQUEST: the printer chosen, the record list, and the job that joins the table.
-/

namespace Sys2Proof.Machine

/-! ## The printer chosen (R157) -/

theorem RosterEntry.hasPrinter_iff {now : Nat} {e : RosterEntry} :
    e.hasPrinter now = true ↔ e.fresh now = true ∧ ∃ b, e.beacon = some b ∧ b.flags.testBit 1 = true := by
  unfold RosterEntry.hasPrinter
  cases h : e.beacon with
  | none => simp
  | some b => simp

/-- In a rising roster the entry found is the lowest. -/
theorem find?_lowest {l : List RosterEntry} {p : RosterEntry → Bool} {e : RosterEntry}
    (rises : l.Pairwise fun a b => a.station < b.station) (he : l.find? p = some e) : ∀ x ∈ l, p x = true → e.station ≤ x.station := by
  obtain ⟨-, before, after, rfl, others⟩ := List.find?_eq_some_iff_append.1 he
  intro x hx px
  rcases List.mem_append.1 hx with hb | ha
  · exact absurd px (by simpa using others x hb)
  · rcases List.mem_cons.1 ha with rfl | ha
    · exact Nat.le_refl _
    · exact Nat.le_of_lt ((List.pairwise_cons.1 (List.pairwise_append.1 rises).2.1).1 x ha)

theorem printerChoice_none {s : State} : s.printerChoice = none ↔
    s.straps.printer = false ∧ ∀ e ∈ s.line.roster, ¬e.hasPrinter s.clock.now = true := by
  unfold State.printerChoice
  cases hp : s.straps.printer with
  | false => simp
  | true =>
    simp only [if_true, Bool.true_eq_false, false_and, iff_false]
    cases (s.line.roster.find? (RosterEntry.hasPrinter s.clock.now)).map (·.station) with
    | none => exact nofun
    | some n =>
      dsimp only
      split <;> exact nofun

/-- Another station is chosen by its beacon, and at a part with a printer only below its own number. -/
theorem printerChoice_station {s : State} {n : Nat} (h : s.printerChoice = some (.station n)) :
    (∃ e, s.line.roster.find? (RosterEntry.hasPrinter s.clock.now) = some e ∧ e.station = n) ∧
      (s.straps.printer = true → n < s.stationNo) := by
  unfold State.printerChoice at h
  cases hf : s.line.roster.find? (RosterEntry.hasPrinter s.clock.now) with
  | none =>
    rw [hf] at h
    cases hp : s.straps.printer <;> simp [hp] at h
  | some e =>
    rw [hf] at h
    cases hp : s.straps.printer with
    | false => exact ⟨⟨e, rfl, by simpa [hp] using h⟩, nofun⟩
    | true =>
      by_cases lower : e.station < s.stationNo
      · have same : e.station = n := by simpa [hp, lower] using h
        exact ⟨⟨e, rfl, same⟩, fun _ => same ▸ lower⟩
      · simp [hp, lower] at h

/-- The own printer is chosen where no beacon of a lower number reported one. -/
theorem printerChoice_own {s : State} (h : s.printerChoice = some .own) : s.straps.printer = true ∧
    ∀ e, s.line.roster.find? (RosterEntry.hasPrinter s.clock.now) = some e → s.stationNo ≤ e.station := by
  unfold State.printerChoice at h
  cases hp : s.straps.printer with
  | false => simp [hp] at h
  | true =>
    refine ⟨rfl, fun e he => Nat.le_of_not_lt fun lower => ?_⟩
    simp [hp, he, lower] at h

/-! ## The record list (R158) -/

/-- A SEALED record of a tag. -/
def Store.lists (st : Store) (t : Tag) (r : Nat) : Prop := ∃ e ∈ st.dir, e.img.record = r ∧ e.img.sealed = true ∧ e.img.tag = t

theorem mem_sealedOf {st : Store} {t : Tag} {r : Nat} : r ∈ (st.sealedOf t).map (·.img.record) ↔ st.lists t r := by
  unfold Store.lists Store.sealedOf
  simp only [List.mem_map, mem_sortBy, List.mem_filter, Bool.and_eq_true, beq_iff_eq]
  exact exists_congr fun e => ⟨fun ⟨⟨hd, ht, hs⟩, hr⟩ => ⟨hd, hr, hs, ht⟩, fun ⟨hd, hr, hs, ht⟩ => ⟨⟨hd, ht, hs⟩, hr⟩⟩

/-- In a directory that names no record twice, the SEALED records of a tag rise. -/
theorem sealedOf_rises {st : Store} (nodup : (st.dir.map (·.img.record)).Nodup) (t : Tag) :
    ((st.sealedOf t).map (·.img.record)).Pairwise (· < ·) := by
  have rises : ((st.sealedOf t).map (·.img.record)).Pairwise (· ≤ ·) := List.pairwise_map.2 (sortBy_pairwise ..)
  have once : ((st.sealedOf t).map (·.img.record)).Nodup :=
    ((sortBy_perm _ _).map _).nodup_iff.2 (nodup.sublist (List.filter_sublist.map _))
  exact (rises.and once).imp fun ⟨le, ne⟩ => Nat.lt_of_le_of_ne le ne

/-- Every SEALED record can be pinned. -/
theorem canPin_lists {st : Store} (nodup : (st.dir.map (·.img.record)).Nodup) {t : Tag} {r : Nat} (h : st.lists t r) :
    st.canPin r = true := by
  obtain ⟨e, he, rfl, hs, -⟩ := h
  have found : st.entryOf e.img.record = some e := by
    cases hf : st.entryOf e.img.record with
    | none => exact absurd (List.find?_eq_none.1 hf e he) (by simp)
    | some x =>
      obtain ⟨hx, hr⟩ := Store.entryOf_some hf
      exact congrArg some (List.inj_on_of_nodup_map nodup hx he hr)
  unfold Store.canPin
  rw [found]
  exact hs

/-- An element that a limited list leaves out comes after all that it takes. -/
theorem take_before {α : Type} {R : α → α → Prop} {l : List α} (ordered : l.Pairwise R) {n : Nat} {r : α} (hr : r ∈ l)
    (out : r ∉ l.take n) : (l.take n).length = n ∧ ∀ x ∈ l.take n, R x r := by
  rw [← List.take_append_drop n l] at hr ordered
  have later : r ∈ l.drop n := (List.mem_append.1 hr).resolve_left out
  have long := List.length_pos_of_mem later
  rw [List.length_drop] at long
  exact ⟨by rw [List.length_take]; omega, fun x hx => (List.pairwise_append.1 ordered).2.2 x hx r later⟩

section
variable {s : State} {k : ReportKind} {count : Nat}

theorem mem_recordList {r : Nat} : r ∈ (s.recordList k count).1 ↔
    r ∈ ((s.candidatesFor k count).1.filter s.store.canPin).take (s.candidatesFor k count).2 := mem_sortBy

theorem recordList_length : (s.recordList k count).1.length =
    (((s.candidatesFor k count).1.filter s.store.canPin).take (s.candidatesFor k count).2).length := (sortBy_perm ..).length_eq

theorem recordList_bound : (s.recordList k count).1.length ≤ (s.candidatesFor k count).2 := by
  rw [recordList_length]
  exact List.length_take_le ..

theorem recordList_rises : (s.recordList k count).1.Pairwise (· ≤ ·) := sortBy_pairwise id _

theorem recordList_candidate {r : Nat} (h : r ∈ (s.recordList k count).1) : r ∈ (s.candidatesFor k count).1 :=
  (List.mem_filter.1 (List.mem_of_mem_take (mem_recordList.1 h))).1

/-- A record that the list leaves out comes, in the order of the candidates, after all that it takes. -/
theorem recordList_before {R : Nat → Nat → Prop} (ordered : (s.candidatesFor k count).1.Pairwise R) {r : Nat}
    (hr : r ∈ (s.candidatesFor k count).1) (pin : s.store.canPin r = true) (out : r ∉ (s.recordList k count).1) :
    (s.recordList k count).1.length = (s.candidatesFor k count).2 ∧ ∀ x ∈ (s.recordList k count).1, R x r := by
  have before := take_before (ordered.filter s.store.canPin) (List.mem_filter.2 ⟨hr, pin⟩) fun h => out (mem_recordList.2 h)
  rw [recordList_length]
  exact ⟨before.1, fun x hx => before.2 x (mem_recordList.1 hx)⟩

/-- The more count says how many candidates the list left out. -/
theorem recordList_more {R : Nat → Nat → Prop} [Std.Irrefl R] (hk : k ≠ .harmonicSummary) (ordered : (s.candidatesFor k count).1.Pairwise R)
    {l : List Nat} (nodup : l.Nodup) (same : ∀ r, r ∈ l ↔ r ∈ (s.candidatesFor k count).1)
    (pins : ∀ r ∈ (s.candidatesFor k count).1, s.store.canPin r = true) :
    (s.recordList k count).2 = min (l.length - (s.candidatesFor k count).2) 65535 := by
  have all : (s.candidatesFor k count).1.filter s.store.canPin = (s.candidatesFor k count).1 := List.filter_eq_self.2 pins
  have perm : l.Perm (s.candidatesFor k count).1 := (List.perm_ext_iff_of_nodup nodup ordered.nodup).2 same
  have more : (s.recordList k count).2 =
      min (((s.candidatesFor k count).1.filter s.store.canPin).length - (s.candidatesFor k count).2) 65535 := if_neg hk
  rw [more, all, perm.length_eq]

end

/-! ## The job that joins (R156, R159) -/

theorem nextJobNumber_eq (held : List Nat) {last : Nat} (h : last ≤ 255) : nextJobNumber held last =
    if last % 255 + 1 ∈ held then (last % 255 + 1) % 255 + 1 else last % 255 + 1 := by
  have wrap (n : Nat) (hn : n ≤ 255) : (if n = 255 then 1 else n + 1) = n % 255 + 1 := by
    split <;> omega
  have bound : last % 255 + 1 ≤ 255 := by omega
  unfold nextJobNumber
  dsimp only
  rw [wrap last h, wrap _ bound]
  simp

/-- The new job of an accepted request, as it stands once it has been asked for the first time. -/
def State.newAsk (s : State) (k : ReportKind) (count : Nat) (urgent : Bool) (p : Party) : Job :=
  { newJob (if (s.jobAt 0).isNone then 0 else 1) (nextJobNumber (s.rep.jobs.map (·.number)) s.rep.lastJob) k count urgent p
      (s.recordList k count).1 (s.recordList k count).2 with
    askSends := 1
    answerTimer := if p = .own then none else some (s.clock.now + ms 1000) }

/-- A job that joined under a free entry stands there as it was set last. -/
theorem insertBy_set {j j' : Job} (same : j'.entry = j.entry) {l : List Job} (new : ∀ x ∈ l, x.entry ≠ j.entry) :
    (insertBy (·.entry) j l).map (fun x => if x.entry == j'.entry then j' else x) = insertBy (·.entry) j' l := by
  rw [same]
  have others {l : List Job} (new : ∀ x ∈ l, x.entry ≠ j.entry) : l.map (fun x => if x.entry == j.entry then j' else x) = l :=
    (List.map_congr_left fun x hx => if_neg (by simpa using new x hx)).trans (List.map_id l)
  induction l with
  | nil => simp [insertBy]
  | cons y l ih =>
    obtain ⟨hy, hl⟩ := List.forall_mem_cons.1 new
    unfold insertBy
    rw [same]
    split
    · rw [List.map_cons, others new, if_pos (beq_self_eq_true _)]
    · rw [List.map_cons, ih hl, if_neg (by simpa using hy)]

/-- The acceptance: the answer goes out before the ask. -/
theorem acceptPrint_eq {s : State} (few : s.rep.jobs.length < 2) (sender : Nat) (k : ReportKind) (count : Nat) (urgent : Bool)
    (p : Party) :
    let j := s.newAsk k count urgent p
    s.acceptPrint sender k count urgent p = State.post { s.answer 4 0 j.number false sender with
      store := (s.recordList k count).1.foldl Store.pin s.store
      rep := ⟨insertBy (·.entry) j s.rep.jobs, j.number⟩ } p true (.printAsk j.number k.code (classByte urgent)) := by
  have joins := insertBy_set (j := newJob (if (s.jobAt 0).isNone then 0 else 1)
    (nextJobNumber (s.rep.jobs.map (·.number)) s.rep.lastJob) k count urgent p (s.recordList k count).1 (s.recordList k count).2)
    (j' := s.newAsk k count urgent p) rfl (freeEntry few)
  intro j
  rw [← joins]
  rfl

theorem exec_printRequest_takes {s : State} {rx : Rx} (h : s.takes rx) (f : PrintRequestFrame) :
    exec (.printRequest rx f) s = .next ((s.heard rx).printRequest rx.sender.toNat f).run :=
  congrArg _ (receive_takes h none _)

/-- The interval count of a request, which only a HARMONIC SUMMARY has. -/
def intervalCount (f : PrintRequestFrame) (k : ReportKind) : Nat :=
  if k = .harmonicSummary then clamp 1 24 f.count.toNat else 0

theorem printRequest_accepts {s : State} {f : PrintRequestFrame} {k : ReportKind} {p : Party}
    (hk : ReportKind.ofCode f.kind.toNat = some k) (survey : s.hdr.state ≠ .idle) (few : s.rep.jobs.length < 2)
    (choice : s.printerChoice = some p) (sender : Nat) :
    s.printRequest sender f = s.acceptPrint sender k (intervalCount f k) (f.cls.toNat == 1) p := by
  unfold State.printRequest
  rw [hk]
  dsimp only
  rw [if_neg survey, if_neg (Nat.not_le.2 few), choice]
  rfl

end Sys2Proof.Machine
end

section
/-!
PROOF. A job at this station's own printer: each message of the exchange as it is taken inside the station (R166).
-/

namespace Sys2Proof.Machine

/-! ## One message after the other -/

/-- The state with one job in its table, and its printer service as given. -/
def State.withOwn (s : State) (p : Printer) (j : Job) : State := { s with prn := p, rep := ⟨[j], j.number⟩ }

theorem runHands_takes {s t : State} {h : Hand} {hs : List Hand} (take : s.takeHand h = (t, hs)) (n : Nat) (rest : List Hand) :
    runHands (n + 1) s (h :: rest) = runHands n t (rest ++ hs) := by
  change runHands n (s.takeHand h).1 (rest ++ (s.takeHand h).2) = _
  rw [take]

theorem classByte_urgent (urgent : Bool) : (classByte urgent == 1) = urgent := by
  unfold classByte
  cases urgent with
  | true => rfl
  | false =>
    simp only [Bool.false_eq_true, if_false]
    split
    · rfl
    next other => simpa using other

theorem ofCode_code (k : ReportKind) : ReportKind.ofCode k.code = some k := by
  cases k <;> rfl

/-- The only entry of a queue is chosen when it waits. -/
theorem choice_only {p : Printer} {e : QueueEntry} (only : p.queue = [e]) (waits : e.printing = false) (now : Nat) :
    p.choice now = some e := by
  have waiting : p.queue.filter (fun x => !x.printing) = [e] := by simp [only, waits]
  have free : (p.barred [e] != some e.origin) = true := by
    simp only [bne_iff_ne, ne_eq]
    unfold Printer.barred
    split
    next a b c _ =>
      split
      next all =>
        have other : e.origin ≠ a := by simpa using all.2.2
        exact fun same => other (Option.some.inj same).symm
      next => exact nofun
    next => exact nofun
  have left : [e].filter (fun x => p.barred [e] != some x.origin) = [e] := List.filter_eq_self.2 fun x hx => by
    rw [List.mem_singleton.1 hx]
    exact free
  unfold Printer.choice
  dsimp only
  rw [waiting, left]
  cases hx : QueueEntry.effective now e <;> simp [hx]

/-! ## The printer service's side -/

/-- The queue entry of an own job. -/
def State.ownEntry (s : State) (j : Job) : QueueEntry := ⟨.own, j.number, j.kind, j.urgent, s.clock.now, false⟩

/-- The service of an own job once its banner stands in an empty buffer. -/
def Printer.ownGranted (p : Printer) (e : QueueEntry) (now : Nat) (banner : List Byte) : Printer :=
  { p.granted e now banner with queue := [{ e with printing := true }], buffer := [banner] }

section
variable {s : State} {p : Printer} {j : Job} (works : s.serviceWorks = true)
include works

theorem takeHand_ask (new : p.entryOf .own j.number = none) :
    (s.withOwn p j).takeHand ⟨true, .printAsk j.number j.kind.code (classByte j.urgent)⟩ =
      (s.withOwn p j).appendAsk .own j.number j.kind j.urgent := by
  have asks := serviceTake_printAsk (s := s.withOwn p j) (by exact works) (ofCode_code j.kind) .own j.number (classByte j.urgent)
  rw [classByte_urgent] at asks
  refine Eq.trans asks ?_
  have none' : (s.withOwn p j).prn.entryOf .own j.number = none := new
  unfold State.ask
  rw [none']

/-- A full queue refuses the ask. -/
theorem takeHand_ask_full (new : p.entryOf .own j.number = none) (full : 8 ≤ p.queue.length) :
    (s.withOwn p j).takeHand ⟨true, .printAsk j.number j.kind.code (classByte j.urgent)⟩ =
      (s.withOwn p j, [⟨false, .refused j.number 1⟩]) := by
  rw [takeHand_ask works new]
  exact if_pos full

/-- An ask with room joins the queue and is answered; then the service may choose. -/
theorem takeHand_ask_room (new : p.entryOf .own j.number = none) (room : p.queue.length < 8) {t : State} {hs : List Hand}
    (chooses : (s.withOwn { p with queue := p.queue ++ [s.ownEntry j] } j).chooseJob = (t, hs)) :
    (s.withOwn p j).takeHand ⟨true, .printAsk j.number j.kind.code (classByte j.urgent)⟩ =
      (t, ⟨false, .queued j.number⟩ :: hs) := by
  have joins : (s.withOwn p j).appendAsk .own j.number j.kind j.urgent =
      Exchange.andThen (s.withOwn { p with queue := p.queue ++ [s.ownEntry j] } j, [⟨false, .queued j.number⟩]) State.chooseJob :=
    if_neg (Nat.not_le.2 room)
  rw [takeHand_ask works new, joins]
  unfold Exchange.andThen
  rw [chooses]
  rfl

/-- An idle service with paper takes up the only job that waits. -/
theorem chooseJob_own (idle : p.state = .idle) (paper : s.pins.paperOut = false) (empty : p.queue = []) (blank : p.buffer = []) :
    (s.withOwn { p with queue := p.queue ++ [s.ownEntry j] } j).chooseJob =
      (s.withOwn (p.ownGranted (s.ownEntry j) s.clock.now (s.banner (s.ownEntry j))) j, [⟨false, .go j.number⟩]) := by
  have chosen := choice_only (p := { p with queue := p.queue ++ [s.ownEntry j] }) (e := s.ownEntry j) (by rw [empty]; rfl) rfl s.clock.now
  have chooses := chooseJob_idle (s := s.withOwn { p with queue := p.queue ++ [s.ownEntry j] } j) (by exact works) (by exact idle)
    (by exact paper)
  rw [show (s.withOwn { p with queue := p.queue ++ [s.ownEntry j] } j).prn.choice
    (s.withOwn { p with queue := p.queue ++ [s.ownEntry j] } j).clock.now = some (s.ownEntry j) from chosen] at chooses
  have granted : (s.withOwn { p with queue := p.queue ++ [s.ownEntry j] } j).grant (s.ownEntry j) = (s.withOwn
      (({ p with queue := p.queue ++ [s.ownEntry j] } : Printer).granted (s.ownEntry j) s.clock.now (s.banner (s.ownEntry j))) j,
      [⟨false, .go j.number⟩]) := rfl
  have alone : ({ p with queue := p.queue ++ [s.ownEntry j] } : Printer).granted (s.ownEntry j) s.clock.now (s.banner (s.ownEntry j)) =
      p.ownGranted (s.ownEntry j) s.clock.now (s.banner (s.ownEntry j)) := by
    unfold Printer.ownGranted Printer.granted
    simp [empty, blank]
  rw [alone] at granted
  exact chooses.trans granted

variable {e : QueueEntry} (printing : p.printing = some e) (own : e.origin = .own) (job : e.job = j.number)
include printing own job

theorem takeHand_block {k : Nat} (next : k = p.lastTaken + 1) (line : List Byte) :
    (s.withOwn p j).takeHand ⟨true, .printBlock j.number k 0 line⟩ =
      (s.withOwn (p.fresh s.clock.now) j).nextBlock e k 0 line := by
  have block := block_printing (s := s.withOwn p j) (by exact printing) (mark := 0) (by decide) k line
  rw [own, job] at block
  exact (serviceTake_printBlock (s := s.withOwn p j) (by exact works) ..).trans
    (block.trans (jobBlock_next (s := s.withOwn p j) e line (by exact next) 0))

/-- The next line enters a buffer with room. -/
theorem takeHand_block_room (paper : s.pins.paperOut = false) {k : Nat} (next : k = p.lastTaken + 1) (room : p.buffer.length < 2) (line : List Byte) :
    (s.withOwn p j).takeHand ⟨true, .printBlock j.number k 0 line⟩ = (s.withOwn { p.fresh s.clock.now with
      buffer := p.buffer ++ [line], lastTaken := k, lines := p.lines + 1, waiting := none } j, [⟨false, .taken j.number k⟩]) := by
  rw [takeHand_block works printing own job next,
    nextBlock_room (s := s.withOwn (p.fresh s.clock.now) j) e line (by exact paper) (by exact room)]
  unfold State.takeLine
  rw [own, job]
  rfl

/-- The next line waits before a full buffer. -/
theorem takeHand_block_full (paper : s.pins.paperOut = false) {k : Nat} (next : k = p.lastTaken + 1) (full : 2 ≤ p.buffer.length) (line : List Byte) :
    (s.withOwn p j).takeHand ⟨true, .printBlock j.number k 0 line⟩ =
      (s.withOwn { p.fresh s.clock.now with waiting := some (k, line) } j, []) :=
  (takeHand_block works printing own job next line).trans
    (nextBlock_full (s := s.withOwn (p.fresh s.clock.now) j) e line (by exact paper) (by exact full))

end

/-! ## The report engine's side -/

section
variable {s : State} {p : Printer} {j : Job} (own : j.printer = .own)
include own

theorem withOwn_jobOf : (s.withOwn p j).jobOf .own j.number = some j := by
  simp [State.jobOf, State.withOwn, own]

omit own in
/-- The only job of the table is set. -/
theorem withOwn_setJob {j' : Job} (entry : j'.entry = j.entry) (number : j'.number = j.number) :
    (s.withOwn p j).setJob j' = s.withOwn p j' := by
  simp [State.setJob, State.withOwn, entry, number]

/-- REFUSED ends the asked job. -/
theorem takeHand_refused (asked : j.state = .asked) (reason : Nat) :
    (s.withOwn p j).takeHand ⟨false, .refused j.number reason⟩ = ((s.withOwn p j).endJob j .refused, []) := by
  refine (originTake_refused (withOwn_jobOf own) reason).trans ?_
  rw [nowRefused_of_ne (by rw [asked]; exact nofun)]

/-- QUEUED takes the asked job to QUEUED, without timers (R166). -/
theorem takeHand_queued (asked : j.state = .asked) : (s.withOwn p j).takeHand ⟨false, .queued j.number⟩ =
    (s.withOwn p { j with state := .queued, answerTimer := none, refreshTimer := none }, []) := by
  refine (originTake_queued (withOwn_jobOf own)).trans ?_
  have stopped : (s.withOwn p j).exchangeTimer j 10000 = none := if_pos own
  unfold State.nowQueued
  rw [asked, stopped]
  dsimp only
  exact congrArg (·, []) (withOwn_setJob (j' := { j with state := .queued, answerTimer := none, refreshTimer := none }) rfl rfl)

omit own in
/-- A line of the own job is handed over, and no timer runs (R166). -/
theorem composeBlock_withOwn {j' : Job} (own' : j'.printer = .own) (entry : j'.entry = j.entry) (number : j'.number = j.number)
    {line : List Byte} {c : Cursor} (next : (s.withOwn p j).nextLine j' 12 j'.cursor = some (line, c)) :
    (s.withOwn p j).composeBlock j' = (s.withOwn p { j' with
      current := some ⟨j'.nextSeq, some line, 1⟩, nextSeq := j'.nextSeq + 1, cursor := c, answerTimer := none, holdTimer := none },
        [⟨true, .printBlock j'.number j'.nextSeq 0 line⟩]) := by
  rw [composeBlock_own own' next]
  exact congrArg (·, _) (withOwn_setJob (by exact entry) (by exact number))

/-- GO takes the queued job to SENDING with its title. -/
theorem takeHand_go (queued : j.state = .queued) (start : j.cursor = ⟨0, 0, 0, 0⟩) :
    let title := j.kind.name ++ txt " STN" ++ num 2 s.stationNo ++ txt " SVY" ++ num 5 s.hdr.number
    (s.withOwn p j).takeHand ⟨false, .go j.number⟩ = (s.withOwn p { j with
      state := .sending, answerTimer := none, refreshTimer := none, current := some ⟨j.nextSeq, some title, 1⟩,
      nextSeq := j.nextSeq + 1, cursor := ⟨0, 1, 0, 1⟩, holdTimer := none }, [⟨true, .printBlock j.number j.nextSeq 0 title⟩]) := by
  intro title
  let sending : Job := { j with state := .sending, answerTimer := none, refreshTimer := none }
  have next : (s.withOwn p j).nextLine sending 12 sending.cursor = some (title, ⟨0, 1, 0, 1⟩) :=
    (congrArg _ start).trans (nextLine_title (s.withOwn p j) sending)
  refine (originTake_go (withOwn_jobOf own)).trans ?_
  rw [goAhead_of_ne (by rw [queued]; exact nofun)]
  exact composeBlock_withOwn (s := s) (p := p) (j := j) (j' := sending) own rfl rfl next

/-- TAKEN for the current line hands over the next one. -/
theorem takeHand_taken {b : CurBlock} {line : List Byte} {c : Cursor} (sending : j.state = .sending) (current : j.current = some b)
    (isLine : b.line.isSome = true) (held : j.heldSince = none) (next : (s.withOwn p j).nextLine j 12 j.cursor = some (line, c)) :
    (s.withOwn p j).takeHand ⟨false, .taken j.number b.seq⟩ = (s.withOwn p { j with
      current := some ⟨j.nextSeq, some line, 1⟩, nextSeq := j.nextSeq + 1, cursor := c, answerTimer := none, holdTimer := none },
        [⟨true, .printBlock j.number j.nextSeq 0 line⟩]) := by
  have total : (s.withOwn p j).heldTotal j = j.heldTicks := by
    unfold State.heldTotal
    rw [held]
  have unheld : (s.withOwn p j).unheld j = { j with answerTimer := none, holdTimer := none } := by
    unfold State.unheld
    rw [total, ← held]
  let going : Job := { j with answerTimer := none, holdTimer := none }
  have next' : (s.withOwn p j).nextLine going 12 going.cursor = some (line, c) :=
    (nextLine_congr (fun _ => rfl) (fun _ _ => rfl) 12 j.cursor).trans next
  refine (originTake_taken (withOwn_jobOf own) b.seq).trans ?_
  rw [blockTaken_eq sending current, if_pos isLine, unheld]
  exact composeBlock_withOwn (s := s) (p := p) (j := j) (j' := going) own rfl rfl next'

end

end Sys2Proof.Machine
end

section
/-!
PROOF. PRINT_REQUEST: refused, accepted at another station's printer, and accepted at the own one.
-/

namespace Sys2Proof.Machine

/-! ## A request that is accepted -/

theorem ofCode_range {n : Nat} : (n = 0 ∨ 4 < n → ReportKind.ofCode n = none) ∧
    (1 ≤ n → n ≤ 4 → ∃ k, ReportKind.ofCode n = some k) := by
  refine ⟨fun h => ?_, fun low high => ?_⟩
  · unfold ReportKind.ofCode
    split
    iterate 4 · omega
    · rfl
  · have : n = 1 ∨ n = 2 ∨ n = 3 ∨ n = 4 := by omega
    rcases this with rfl | rfl | rfl | rfl <;> exact ⟨_, rfl⟩

section
variable {rx : Rx} {f : PrintRequestFrame} {s : State} {k : ReportKind} (takes : s.takes rx)
  (hk : ReportKind.ofCode f.kind.toNat = some k) (survey : s.hdr.state ≠ .idle)
include takes hk survey

theorem exec_printRequest_accepts (few : s.rep.jobs.length < 2) {p : Party} (choice : (s.heard rx).printerChoice = some p) :
    let j := (s.heard rx).newAsk k (intervalCount f k) (f.cls.toNat == 1) p
    exec (.printRequest rx f) s = .next (State.post { (s.heard rx).answer 4 0 j.number false rx.sender.toNat with
      store := j.records.foldl Store.pin s.store
      rep := ⟨insertBy (·.entry) j s.rep.jobs, j.number⟩ } p true (.printAsk j.number k.code (classByte j.urgent))).run := by
  intro j
  rw [exec_printRequest_takes takes, printRequest_accepts hk (by exact survey) (by exact few) choice, acceptPrint_eq (by exact few)]
  rfl

omit takes hk survey in
/-- The first job of the table takes entry 0 and the next number. -/
theorem newAsk_first (none' : s.rep.jobs = []) (last : s.rep.lastJob ≤ 255) (count : Nat) (urgent : Bool) (p : Party) :
    ((s.heard rx).newAsk k count urgent p).number = s.rep.lastJob % 255 + 1 := by
  have number : nextJobNumber ((s.heard rx).rep.jobs.map (·.number)) (s.heard rx).rep.lastJob = s.rep.lastJob % 255 + 1 := by
    change nextJobNumber (s.rep.jobs.map (·.number)) s.rep.lastJob = _
    rw [nextJobNumber_eq _ last, none']
    rfl
  exact number

/-- The new job asks another station's printer. -/
theorem exec_printRequest_station (few : s.rep.jobs.length < 2) {n : Nat} (choice : (s.heard rx).printerChoice = some (.station n)) :
    let j := (s.heard rx).newAsk k (intervalCount f k) (f.cls.toNat == 1) (.station n)
    exec (.printRequest rx f) s = .next { s with
      store := j.records.foldl Store.pin s.store
      rep := ⟨insertBy (·.entry) j s.rep.jobs, j.number⟩
      line := (((s.heard rx).answer 4 0 j.number false rx.sender.toNat).send (.printAsk j.number k.code (classByte j.urgent)) n).line } := by
  intro j
  rw [exec_printRequest_accepts takes hk survey few choice, post_station, run_nil]
  rfl

end

/-! ## What the record list holds -/

/-- What a report kind may list (R158). -/
def State.eligible (s : State) (k : ReportKind) (r : Nat) : Prop :=
  match k with
  | .sagList => s.store.lists .sag r ∧ s.hdr.watermark < r
  | .harmonicSummary => s.store.lists .interval r
  | .noteList => s.store.lists .note r
  | .surveySheet => False

section
variable {s : State} {k : ReportKind} {count : Nat}

theorem mem_candidatesFor {r : Nat} : r ∈ (s.candidatesFor k count).1 ↔ s.eligible k r := by
  cases k with
  | sagList =>
    refine List.mem_filter.trans ?_
    rw [mem_sealedOf, decide_eq_true_iff]
    rfl
  | harmonicSummary => exact List.mem_reverse.trans mem_sealedOf
  | noteList => exact mem_sealedOf
  | surveySheet => exact iff_of_false List.not_mem_nil id

variable (nodup : (s.store.dir.map (·.img.record)).Nodup)
include nodup

theorem eligible_canPin {r : Nat} (h : s.eligible k r) : s.store.canPin r = true := by
  cases k with
  | sagList => exact canPin_lists nodup h.1
  | harmonicSummary | noteList => exact canPin_lists nodup h
  | surveySheet => exact h.elim

/-- A SAG LIST and a NOTE LIST take their candidates from the lowest on, 64 at most. -/
theorem candidatesFor_rise (hk : k = .sagList ∨ k = .noteList) :
    (s.candidatesFor k count).1.Pairwise (· < ·) ∧ (s.candidatesFor k count).2 = 64 := by
  rcases hk with rfl | rfl
  · exact ⟨(sealedOf_rises nodup _).filter _, rfl⟩
  · exact ⟨sealedOf_rises nodup _, rfl⟩

/-- A HARMONIC SUMMARY takes its candidates from the newest on. -/
theorem candidatesFor_fall : (s.candidatesFor .harmonicSummary count).1.Pairwise (· > ·) :=
  List.pairwise_reverse.2 (sealedOf_rises nodup _)

/-- The record list holds what may be listed, the lowest or the newest, and the more count what it leaves out (R158). -/
theorem recordList_spec : (∀ r ∈ (s.recordList k count).1, s.eligible k r) ∧
    (k = .sagList ∨ k = .noteList →
      (∀ r, s.eligible k r → r ∉ (s.recordList k count).1 →
        (s.recordList k count).1.length = 64 ∧ ∀ x ∈ (s.recordList k count).1, x < r) ∧
      ∀ l : List Nat, l.Nodup → (∀ r, r ∈ l ↔ s.eligible k r) → (s.recordList k count).2 = min (l.length - 64) 65535) ∧
    (k = .harmonicSummary → ∀ r, s.eligible k r → r ∉ (s.recordList k count).1 →
      (s.recordList k count).1.length = count ∧ ∀ x ∈ (s.recordList k count).1, r < x) := by
  refine ⟨fun r hr => mem_candidatesFor.1 (recordList_candidate hr), fun hk => ?_, fun hk r hr out => ?_⟩
  · obtain ⟨rise, limit⟩ := candidatesFor_rise (count := count) nodup hk
    refine ⟨fun r hr out => ?_, fun l once same => ?_⟩
    · have before := recordList_before rise (mem_candidatesFor.2 hr) (eligible_canPin nodup hr) out
      rwa [limit] at before
    · have more := recordList_more (by rintro rfl; simp at hk) rise once (fun r => (same r).trans mem_candidatesFor.symm)
        fun r hr => eligible_canPin nodup (mem_candidatesFor.1 hr)
      rwa [limit] at more
  · subst hk
    exact recordList_before (candidatesFor_fall nodup) (mem_candidatesFor.2 hr) (eligible_canPin nodup hr) out

end

/-- A HARMONIC SUMMARY lists 24 intervals at most and has no more count; no list is longer than 64. -/
theorem recordList_sizes (s : State) (f : PrintRequestFrame) (k : ReportKind) :
    (k = .harmonicSummary → (s.recordList k (intervalCount f k)).1.length ≤ 24 ∧ (s.recordList k (intervalCount f k)).2 = 0) ∧
      (s.recordList k (intervalCount f k)).1.length ≤ 64 := by
  have bound := recordList_bound (s := s) (k := k) (count := intervalCount f k)
  have count : clamp 1 24 f.count.toNat ≤ 24 := by
    unfold clamp
    split
    · omega
    · split <;> omega
  refine ⟨?_, bound.trans ?_⟩
  · rintro rfl
    exact ⟨bound.trans count, rfl⟩
  · cases k with
    | harmonicSummary => exact Nat.le_trans count (by decide)
    | sagList | noteList => exact Nat.le_refl 64
    | surveySheet => exact Nat.zero_le 64

/-! ## At the own printer (R166) -/

/-- Pins that are taken back leave the store as it was. -/
theorem unpin_pin (l : List Nat) (st : Store) : l.foldl Store.unpin (l.foldl Store.pin st) = st := by
  rw [foldl_pin_eq, foldl_unpin_eq]
  have back (e : Entry) : Entry.repin (· - ·) l (Entry.repin (· + ·) l e) = e := by
    simp [Entry.repin]
  simp [Function.comp_def, back]

/-- The first two lines of a SURVEY SHEET are its title and the survey state, where no SITE note stands. -/
theorem nextLine_sheet {s : State} {j : Job} (sheet : j.kind = .surveySheet) (records : j.records = []) (more : j.more = 0)
    (sites : ∀ n ∈ s.notes, n.site = false) :
    s.nextLine j 12 ⟨0, 1, 0, 1⟩ = some (txt "STATE " ++ s.hdr.state.name, ⟨4, 0, 1, 1⟩) := by
  have none' : s.sites = [] := List.filter_eq_nil_iff.2 fun n hn => by simp [sites n hn]
  simp [State.nextLine, State.groupSize, State.itemLines, none', records, more, sheet]

/-- The banner of an own SURVEY SHEET. -/
theorem banner_sheet {s : State} {e : QueueEntry} (own : e.origin = .own) (sheet : e.kind = .surveySheet) : s.banner e =
    txt "== JOB " ++ num 2 s.stationNo ++ txt "/" ++ num 3 e.job ++ txt " SURVEY SHEET" := by
  have job : txt "== JOB " = txt "== JOB" ++ sp := by decide
  have name : txt " SURVEY SHEET" = sp ++ ReportKind.surveySheet.name := by decide
  simp [State.banner, State.jobTag, State.partyNumber, own, sheet, job, name]

/-- A sheet at an own printer that is free: the exchange up to the line that waits before the full buffer. -/
theorem run_sheet {s : State} {p : Printer} {j : Job} (works : s.serviceWorks = true) (sheet : j.kind = .surveySheet)
    (records : j.records = []) (more : j.more = 0) (sites : ∀ n ∈ s.notes, n.site = false) (own : j.printer = .own)
    (asked : j.state = .asked) (start : j.cursor = ⟨0, 0, 0, 0⟩) (seq : j.nextSeq = 1) (held : j.heldSince = none)
    (idle : p.state = .idle) (paper : s.pins.paperOut = false) (empty : p.queue = []) (blank : p.buffer = []) :
    let banner := txt "== JOB " ++ num 2 s.stationNo ++ txt "/" ++ num 3 j.number ++ txt " SURVEY SHEET"
    let title := txt "SURVEY SHEET" ++ txt " STN" ++ num 2 s.stationNo ++ txt " SVY" ++ num 5 s.hdr.number
    let line := txt "STATE " ++ s.hdr.state.name
    Exchange.run (s.withOwn p j, [⟨true, .printAsk j.number j.kind.code (classByte j.urgent)⟩]) =
      s.withOwn { p.ownGranted (s.ownEntry j) s.clock.now banner with
        buffer := [banner, title], lastTaken := 1, lines := 1, waiting := some (2, line)
        inactivity := some (s.clock.now + ms 5000), goTimer := none } { j with
        state := .sending, answerTimer := none, refreshTimer := none, current := some ⟨2, some line, 1⟩, nextSeq := 3,
        cursor := ⟨4, 0, 1, 1⟩, holdTimer := none } := by
  intro banner title line
  let e : QueueEntry := { s.ownEntry j with printing := true }
  let p1 := p.ownGranted (s.ownEntry j) s.clock.now banner
  let p2 : Printer := { p1.fresh s.clock.now with buffer := [banner, title], lastTaken := 1, lines := 1, waiting := none }
  let j1 : Job := { j with state := .queued, answerTimer := none, refreshTimer := none }
  let j2 : Job := { j1 with
    state := .sending, current := some ⟨1, some title, 1⟩, nextSeq := 2, cursor := ⟨0, 1, 0, 1⟩, holdTimer := none }
  let j3 : Job := { j2 with current := some ⟨2, some line, 1⟩, nextSeq := 3, cursor := ⟨4, 0, 1, 1⟩ }
  have new : p.entryOf .own j.number = none := by
    unfold Printer.entryOf
    rw [empty]
    rfl
  have chooses := chooseJob_own (j := j) works idle paper empty blank
  rw [banner_sheet (s := s) (e := s.ownEntry j) rfl sheet] at chooses
  have ask := takeHand_ask_room works new (by rw [empty]; decide) chooses
  have queued := takeHand_queued (s := s) (p := p1) own asked
  have go := takeHand_go (s := s) (p := p1) (j := j1) own rfl start
  rw [show j1.nextSeq = 1 from seq, show j1.kind.name = txt "SURVEY SHEET" from congrArg ReportKind.name sheet] at go
  have block := takeHand_block_room (s := s) (p := p1) (j := j2) works (e := e) rfl rfl rfl paper (k := 1) rfl
    (show 1 < 2 by decide) title
  have taken := takeHand_taken (s := s) (p := p2) (j := j2) own (b := ⟨1, some title, 1⟩) rfl rfl rfl held
    (nextLine_sheet (s := s.withOwn p2 j2) (j := j2) sheet records more sites)
  have waits := takeHand_block_full (s := s) (p := p2) (j := j3) works (e := e) rfl rfl rfl paper (k := 2) rfl
    (show 2 ≤ 2 by decide) line
  refine (runHands_takes ask 31 []).trans ?_
  refine (runHands_takes queued 30 [⟨false, .go j.number⟩]).trans ?_
  refine (runHands_takes go 29 []).trans ?_
  refine (runHands_takes block 28 []).trans ?_
  refine (runHands_takes taken 27 []).trans ?_
  refine (runHands_takes waits 26 []).trans ?_
  exact runHands_nil ..

/-! ## The obligation -/

/-- Every request of an existing kind that is not accepted is answered, and nothing else changes (R155). -/
theorem printRequest_refuses {rx : Rx} {f : PrintRequestFrame} {s : State} (takes : s.takes rx) {k : ReportKind}
    (hk : ReportKind.ofCode f.kind.toNat = some k) :
    (s.hdr.state = .idle → exec (.printRequest rx f) s = .next ((s.heard rx).answer 4 3 0 false rx.sender.toNat)) ∧
    (s.hdr.state ≠ .idle → 2 ≤ s.rep.jobs.length →
      exec (.printRequest rx f) s = .next ((s.heard rx).answer 4 4 0 false rx.sender.toNat)) ∧
    (s.hdr.state ≠ .idle → s.rep.jobs.length < 2 → (s.heard rx).printerChoice = none →
      exec (.printRequest rx f) s = .next ((s.heard rx).answer 4 5 0 false rx.sender.toNat)) := by
  have answers {x : State} (h : (s.heard rx).printRequest rx.sender.toNat f = (x, [])) : exec (.printRequest rx f) s = .next x := by
    rw [exec_printRequest_takes takes, h, run_nil]
  refine ⟨fun idle => answers ?_, fun survey many => answers ?_, fun survey few none' => answers ?_⟩
  all_goals
    unfold State.printRequest
    rw [hk]
    dsimp only
  · exact if_pos idle
  · rw [if_neg (by exact survey)]
    exact if_pos many
  · rw [if_neg (by exact survey), if_neg (by exact Nat.not_le.2 few), none']

/-- Beside another job the free entry is taken and its number passed over (R156). -/
theorem newAsk_second {s : State} {o : Job} (one : s.rep.jobs = [o]) (entry : o.entry < 2) (last : s.rep.lastJob ≤ 255)
    (k : ReportKind) (count : Nat) (urgent : Bool) (p : Party) : (s.newAsk k count urgent p).entry = 1 - o.entry ∧
      (s.newAsk k count urgent p).number =
        if o.number = s.rep.lastJob % 255 + 1 then (s.rep.lastJob % 255 + 1) % 255 + 1 else s.rep.lastJob % 255 + 1 := by
  constructor
  · change (if (s.jobAt 0).isNone then 0 else 1) = _
    unfold State.jobAt
    rw [one]
    by_cases h : o.entry = 0
    · simp [h]
    · simp [h]
      omega
  · change nextJobNumber (s.rep.jobs.map (·.number)) s.rep.lastJob = _
    rw [nextJobNumber_eq _ last, one]
    simp [eq_comm]

/-- The first job of the table at the own printer: its ask is on its way. -/
theorem exec_printRequest_own {rx : Rx} {f : PrintRequestFrame} {s : State} {k : ReportKind} (takes : s.takes rx)
    (hk : ReportKind.ofCode f.kind.toNat = some k) (survey : s.hdr.state ≠ .idle) (none' : s.rep.jobs = [])
    (choice : (s.heard rx).printerChoice = some .own) :
    let j := (s.heard rx).newAsk k (intervalCount f k) (f.cls.toNat == 1) .own
    exec (.printRequest rx f) s = .next (Exchange.run (State.withOwn { (s.heard rx).answer 4 0 j.number false rx.sender.toNat with
      store := j.records.foldl Store.pin s.store } s.prn j, [⟨true, .printAsk j.number j.kind.code (classByte j.urgent)⟩])) := by
  intro j
  rw [exec_printRequest_accepts takes hk survey (by rw [none']; decide) choice, none']
  rfl

/-- Settles O40: the choice (`printerChoice_none`, `printerChoice_station`, `printerChoice_own`), the refusals
(`printRequest_refuses`), the ask to another station (`exec_printRequest_station`, `recordList_spec`), and the exchange at the
own printer (`takeHand_ask_full`, `takeHand_queued`, `run_sheet`). -/
theorem printRequestIsAnswered : Obligations.PrintRequestIsAnswered := by
  unfold Obligations.PrintRequestIsAnswered
  refine ⟨fun s => ?_, fun rx f s takes => ⟨fun unknown => ?_, fun low high => ?_, fun k n o hk survey one entry last choice => ?_,
    fun k hk survey none' last choice new => ?_, fun k n hk survey none' last choice => ?_⟩⟩
  · intro prints
    have same (e : RosterEntry) : e.hasPrinter s.clock.now = true ↔ prints e := RosterEntry.hasPrinter_iff
    refine ⟨?_, fun rises => ⟨fun n station => ?_, fun own => ?_⟩⟩
    · rw [printerChoice_none]
      exact and_congr_right fun _ => forall_congr' fun e => imp_congr_right fun _ => not_congr (same e)
    · obtain ⟨⟨e, found, rfl⟩, lower⟩ := printerChoice_station station
      exact ⟨⟨e, List.mem_of_find?_eq_some found, rfl, (same e).1 (List.find?_some found)⟩,
        fun x hx px => find?_lowest rises found x hx ((same x).2 px), lower⟩
    · obtain ⟨strap, other⟩ := printerChoice_own own
      refine ⟨strap, fun x hx px => ?_⟩
      cases found : s.line.roster.find? (RosterEntry.hasPrinter s.clock.now) with
      | none => exact absurd ((same x).2 px) (List.find?_eq_none.1 found x hx)
      | some e => exact (other e found).trans (find?_lowest rises found x hx ((same x).2 px))
  · have kind : ReportKind.ofCode f.kind.toNat = none := ofCode_range.1 (unknown.imp_left fun h => by rw [h]; rfl)
    rw [exec_printRequest_takes takes]
    unfold State.printRequest
    rw [kind]
    dsimp only
    rw [run_nil]
  · obtain ⟨k, hk⟩ := ofCode_range.2 low high
    exact printRequest_refuses takes hk
  · intro following
    obtain ⟨free, number⟩ := newAsk_second (s := s.heard rx) (by exact one) entry last k (intervalCount f k) (f.cls.toNat == 1)
      (.station n)
    refine ⟨_, (s.heard rx).newAsk k (intervalCount f k) (f.cls.toNat == 1) (.station n),
      exec_printRequest_station takes hk survey (by rw [one]; exact Nat.lt_succ_self 1) choice, mem_insertBy.2 (.inl rfl), mem_insertBy.2 (.inr ?_), ?_,
      free, number, rfl, rfl, rfl, rfl⟩
    · rw [one]
      exact List.mem_singleton_self o
    · refine (insertBy_perm ..).length_eq.trans ?_
      rw [one]
      rfl
  · intro number answered
    let j := (s.heard rx).newAsk k (intervalCount f k) (f.cls.toNat == 1) .own
    have hnumber : j.number = number := newAsk_first none' last ..
    have asks := exec_printRequest_own takes hk survey none' choice
    have works : (s.heard rx).serviceWorks = true := by
      simp [State.serviceWorks, State.isRunning, State.heard, show s.mode = .running from takes.1, show s.straps.printer = true from
        (printerChoice_own choice).1]
    have new : s.prn.entryOf .own j.number = none := hnumber ▸ new
    have cls : (f.cls.toNat == 1) = (f.cls == 1) := by
      rw [Bool.eq_iff_iff, beq_iff_eq, beq_iff_eq, BitVec.toNat_eq]
      rfl
    let base : State := { (s.heard rx).answer 4 0 j.number false rx.sender.toNat with store := j.records.foldl Store.pin s.store }
    have line : base.line = answered.line := by
      change ((s.heard rx).answer 4 0 j.number false rx.sender.toNat).line = _
      rw [hnumber]
    refine ⟨fun full => ?_, fun room busy => ?_, fun sheet idle paper empty blank sites => ?_⟩
    · have refused := (runHands_takes (takeHand_ask_full (s := base) (j := j) (by exact works) new full) 31 []).trans
        (runHands_takes (takeHand_refused (s := base) (p := s.prn) (j := j) rfl rfl 1) 30 [])
      refine ⟨_, asks.trans (congrArg _ (refused.trans (runHands_nil ..))), ?_⟩
      rw [endJob_undone (by decide)]
      refine ⟨?_, unpin_pin j.records s.store, rfl, line, rfl⟩
      rw [← hnumber]
      simp [State.withOwn]
    · have queued := (runHands_takes (takeHand_ask_room (s := base) (j := j) (by exact works) new room
        (chooseJob_busy (by exact busy))) 31 []).trans
        (runHands_takes (takeHand_queued (s := base) (j := j) rfl rfl) 30 [])
      refine ⟨_, { j with state := .queued, answerTimer := none, refreshTimer := none },
        asks.trans (congrArg _ (queued.trans (runHands_nil ..))), ?_, rfl, rfl, rfl, rfl, rfl, line, rfl, ?_⟩
      · rw [← hnumber]
        rfl
      · rw [← hnumber, ← cls]
        rfl
    · subst sheet
      intro title first
      have run := run_sheet (s := base) (p := s.prn) (j := j) (by exact works) rfl rfl rfl (by exact sites) rfl rfl rfl rfl rfl idle
        (by exact paper) empty blank
      refine ⟨_, { j with
        state := .sending, answerTimer := none, refreshTimer := none, current := some ⟨2, some first, 1⟩, nextSeq := 3,
        cursor := ⟨4, 0, 1, 1⟩, holdTimer := none }, asks.trans (congrArg _ run), ?_, rfl, rfl, rfl, rfl, ?_, rfl, rfl, rfl, rfl, rfl, line, rfl⟩
      · rw [← hnumber]
        rfl
      · rw [← hnumber]
        rfl
  · let j := (s.heard rx).newAsk k (intervalCount f k) (f.cls.toNat == 1) (.station n)
    have number : j.number = s.rep.lastJob % 255 + 1 := newAsk_first none' last ..
    obtain ⟨summary, size⟩ := recordList_sizes (s.heard rx) f k
    refine ⟨_, j, exec_printRequest_station takes hk survey (by rw [none']; decide) choice, ?_, rfl, number, rfl, ?_, rfl, rfl, rfl, rfl,
      rfl, rfl, rfl, rfl, rfl, summary, size, recordList_rises, fun r hr => recordList_canPin hr, fun nodup => ?_,
      rfl, rfl, rfl, rfl, rfl, rfl, rfl, rfl⟩
    · rw [none']
      rfl
    · change (f.cls.toNat == 1) = true ↔ _
      rw [beq_iff_eq, BitVec.toNat_eq]
      rfl
    · intro eligible
      obtain ⟨lists, low, high⟩ := recordList_spec (s := s.heard rx) (k := k) (count := intervalCount f k) nodup
      have same (r : Nat) : eligible r ↔ (s.heard rx).eligible k r := by
        cases k with
        | sagList => exact ⟨fun ⟨e, hd, hr, hs, ht, above⟩ => ⟨⟨e, hd, hr, hs, ht⟩, above⟩,
            fun ⟨⟨e, hd, hr, hs, ht⟩, above⟩ => ⟨e, hd, hr, hs, ht, above⟩⟩
        | harmonicSummary | noteList => exact Iff.rfl
        | surveySheet => exact ⟨fun ⟨e, hd, hr, hs, no⟩ => no, False.elim⟩
      refine ⟨fun r hr => (same r).2 (lists r hr), fun hk => ⟨fun r hr => (low hk).1 r ((same r).1 hr), fun l once all =>
        (low hk).2 l once fun r => (all r).trans (same r)⟩, fun hk r hr out => ?_⟩
      have count : intervalCount f k = max 1 (min 24 f.count.toNat) := by
        unfold intervalCount clamp
        rw [if_pos hk]
        split
        · omega
        · split <;> omega
      rw [← count]
      exact high hk r ((same r).1 hr) out

end Sys2Proof.Machine
end

section
/-!
PROOF. What a restart reads of a store that it finds, and the format of one that it does not (R137, R139).
-/

namespace Sys2Proof.Machine

/-! ## The copies of the BAD list and of the control page -/

theorem readBad_eq (nv : Region) : nv.readBad = (match nv.badCopy false, nv.badCopy true with
    | some a, some b => if a.count < b.count then some b else some a
    | some a, none => some a
    | none, b => b) := by
  unfold Region.readBad
  rcases nv.badCopy false with _ | a <;> rcases nv.badCopy true with _ | b <;> rfl

theorem readCtl_eq (nv : Region) : nv.readCtl = (match nv.ctlCopy false, nv.ctlCopy true with
    | some a, some b => if a.count < b.count then some b else some a
    | some a, none => some a
    | none, b => b) := by
  unfold Region.readCtl
  rcases nv.ctlCopy false with _ | a <;> rcases nv.ctlCopy true with _ | b <;> rfl

/-! ## Claims to a page (R137) -/

/-- The BAD list that a restart goes on from. -/
def Region.badFound (nv : Region) : List Nat := (nv.readBad.map BadCopy.pages).getD []

theorem loses_iff {nv : Region} {i : Nat} {d : DirImage} {p : Nat} : nv.loses i d p ↔ keepsPage nv.badFound nv.dir (i, d) p = false := by
  have listed : (∃ c, nv.readBad = some c ∧ p ∈ c.pages) ↔ p ∈ nv.badFound := by
    unfold Region.badFound
    cases nv.readBad <;> simp
  have won : (∃ i' d', i' < 1024 ∧ nv.entry i' = some d' ∧ p ∈ d'.pages ∧ (d.record < d'.record ∨ (d.record = d'.record ∧ i' < i))) ↔
      ∃ y ∈ nv.dir, wins (i, d) y = true ∧ p ∈ y.2.pages := by
    simp only [wins, Prod.exists, Region.mem_dir, Bool.or_eq_true, Bool.and_eq_true, decide_eq_true_eq, beq_iff_eq]
    exact exists_congr fun i' => exists_congr fun d' => by tauto
  unfold Region.loses keepsPage
  rw [listed, won]
  generalize nv.dir = found
  simp only [Bool.and_eq_false_iff, Bool.not_eq_false', List.contains_eq_mem, decide_eq_true_eq, List.any_eq_true, Bool.and_eq_true]

/-- The leading elements that satisfy a test, up to the first that does not. -/
theorem takeWhile_eq_take {α : Type} {f : α → Bool} {l : List α} {k : Nat} (holds : ∀ x ∈ l.take k, f x = true)
    (stops : ∀ x, l[k]? = some x → f x = false) : l.takeWhile f = l.take k := by
  induction l generalizing k with
  | nil => simp
  | cons a l ih =>
    cases k with
    | zero => simp [stops a rfl]
    | succ k =>
      rw [List.takeWhile_cons, if_pos (holds a (by simp)), List.take_succ_cons,
        ih (fun x hx => holds x (by rw [List.take_succ_cons]; exact List.mem_cons_of_mem _ hx)) fun x hx => stops x (by simpa using hx)]

section
variable {nv : Region} {i k : Nat} {d : DirImage}

/-- The entry whose claims hold for its first `k` positions, as it is read. -/
theorem keptEntry_take (keeps : ∀ p ∈ d.pages.take k, ¬nv.loses i d p) (long : k ≤ d.pages.length)
    (stops : ∀ p, d.pages[k]? = some p → nv.loses i d p) : keptPositions nv.badFound nv.dir (i, d) = k ∧
      keptEntry nv.badFound nv.dir (i, d) = ⟨i, { d with pages := d.pages.take k, verified := min d.verified k }, 0, 0, none, none, []⟩ := by
  have pages : d.pages.takeWhile (keepsPage nv.badFound nv.dir (i, d)) = d.pages.take k :=
    takeWhile_eq_take (fun p hp => by simpa [loses_iff] using keeps p hp) fun p hp => loses_iff.1 (stops p hp)
  have kept : keptPositions nv.badFound nv.dir (i, d) = k := by
    rw [keptPositions_eq, pages, List.length_take, min_eq_left long]
  refine ⟨kept, ?_⟩
  unfold keptEntry
  rw [kept, pages]

/-- The entry of a number, where each number stands once. -/
theorem find_index {l : List Entry} (once : (l.map (·.index)).Nodup) {e : Entry} (he : e ∈ l) {i : Nat} (same : e.index = i) :
    l.find? (fun x => x.index == i) = some e := by
  cases hf : l.find? (fun x => x.index == i) with
  | none => exact absurd (List.find?_eq_none.1 hf e he) (by simp [same])
  | some x =>
    have hx : x.index = i := by simpa using List.find?_some hf
    exact congrArg some (List.inj_on_of_nodup_map once (List.mem_of_find?_eq_some hf) he (hx.trans same.symm))

/-- What stands under the number of a live entry in the directory read: the positions it keeps, or nothing. -/
theorem readDir_find (hi : i < 1024) (hd : nv.entry i = some d) :
    (readDir nv.badFound nv.dir).find? (fun e => e.index == i) =
      if keptPositions nv.badFound nv.dir (i, d) = 0 then none else some (keptEntry nv.badFound nv.dir (i, d)) := by
  have here : (i, d) ∈ nv.dir := Region.mem_dir.2 ⟨hi, hd⟩
  have only {x : Nat × DirImage} (hx : x ∈ nv.dir) (same : x.1 = i) : x = (i, d) := by
    obtain ⟨j, d'⟩ := x
    obtain ⟨-, hd'⟩ := Region.mem_dir.1 hx
    obtain rfl : j = i := same
    rw [show d' = d from Option.some.inj (hd'.symm.trans hd)]
  have once : ((readDir nv.badFound nv.dir).map (·.index)).Nodup := nv.dir_nodup.sublist (readDir_index ..)
  split
  next gone =>
    refine List.find?_eq_none.2 fun e he same => ?_
    obtain ⟨x, hx, kept, rfl⟩ := mem_readDir.1 he
    rw [only hx (by simpa [keptEntry] using same)] at kept
    exact kept gone
  next kept =>
    have mem : keptEntry nv.badFound nv.dir (i, d) ∈ readDir nv.badFound nv.dir := mem_readDir.2 ⟨_, here, kept, rfl⟩
    exact find_index once mem rfl

end

/-! ## The last record number -/

theorem topRecord_attained (l : List (Nat × DirImage)) (n : Nat) : topRecord l n = n ∨ ∃ x ∈ l, x.2.record = topRecord l n := by
  unfold topRecord
  induction l generalizing n with
  | nil => exact .inl rfl
  | cons x l ih =>
    rw [List.foldl_cons]
    rcases ih (max n x.2.record) with h | ⟨y, hy, h⟩
    · rw [h]
      rcases le_total n x.2.record with le | le
      · exact .inr ⟨x, List.mem_cons_self .., by simp [le]⟩
      · exact .inl (max_eq_left le)
    · exact .inr ⟨y, List.mem_cons_of_mem _ hy, h⟩

/-! ## The restart reading -/

/-- A page that passed the page test reads zeros. -/
theorem pageTest_zero {st : Store} {pages failing : List Nat} {a : Nat} (tested : a / 1024 ∈ pages) (passes : a / 1024 ∉ failing) :
    (st.pageTest pages failing).1.nv.mem.read a = 0 := by
  change Memory.read (List.filter _ st.nv.mem) a = 0
  unfold Memory.read
  have gone : List.find? (fun c => c.1 == a) (List.filter (fun c => !((pages.filter fun p => !failing.contains p).contains
      (c.1 / Config.pageBytes))) st.nv.mem) = none := by
    refine List.find?_eq_none.2 fun c hc same => ?_
    obtain rfl : c.1 = a := by simpa using same
    have kept := (List.mem_filter.1 hc).2
    rw [Bool.not_eq_true', List.contains_eq_mem, decide_eq_false_iff_not] at kept
    exact kept (List.mem_filter.2 ⟨tested, by simpa [Config.pageBytes] using passes⟩)
  rw [gone]
  rfl

theorem readWith_nv (st : Store) (bad : Option BadCopy) (ctl : Option CtlCopy) (found : List (Nat × DirImage)) :
    (st.readWith bad ctl found).nv = st.nv := rfl

/-- Where no copy of the BAD list is valid, the pages that no entry names are tested. -/
theorem readRegion_tests {st : Store} {failing : List Nat} (none' : st.nv.readBad = none) :
    let out := (st.readRegion failing).1
    out.nv.sys = st.nv.sys ∧ (∀ p, p ∈ out.bad ↔ isDataPage p ∧ p ∈ failing ∧ ∀ e ∈ out.dir, p ∉ e.img.pages) ∧
      ∀ a, isDataPage (a / 1024) → a / 1024 ∉ failing → (∀ e ∈ out.dir, a / 1024 ∉ e.img.pages) → out.nv.mem.read a = 0 := by
  intro out
  have tests : out = ((st.readWith none st.nv.readCtl st.nv.dir).testFree failing).1 := by
    have read := st.readRegion_eq failing
    rw [none'] at read
    exact congrArg Prod.fst read
  clear_value out
  subst tests
  generalize hst : st.readWith none st.nv.readCtl st.nv.dir = read
  have sys : read.nv.sys = st.nv.sys := by rw [← hst]; rfl
  have bad : read.bad = [] := by rw [← hst]; rfl
  have unused (p : Nat) : p ∉ read.used ↔ ∀ e ∈ read.dir, p ∉ e.img.pages := by
    simp only [Store.mem_used, not_exists, not_and]
  have free (p : Nat) : p ∈ read.freePages ↔ isDataPage p ∧ ∀ e ∈ read.dir, p ∉ e.img.pages := by
    rw [Store.mem_freePages, unused, bad]
    simp
  refine ⟨sys, fun p => ?_, fun a data passes names => ?_⟩
  · rw [Store.mem_testFree_bad, free, bad]
    simp only [List.not_mem_nil, or_false]
    exact ⟨fun ⟨⟨data, names⟩, fails⟩ => ⟨data, fails, names⟩, fun ⟨data, fails, names⟩ => ⟨⟨data, names⟩, fails⟩⟩
  · exact pageTest_zero (st := read) ((free _).2 ⟨data, names⟩) passes

/-- The writes of the entries that lost positions are handed over. -/
theorem readRegion_writes {st : Store} {failing : List Nat} {i : Nat} {d : DirImage} (hi : i < 1024) (hd : st.nv.entry i = some d)
    {kept : Option Entry} (found : (readDir st.nv.badFound st.nv.dir).find? (fun e => e.index == i) = kept)
    (lost : kept.map (·.img.pages) ≠ some d.pages) :
    StoreWrite.sys (.entry i (kept.map (·.img.record))) false ∈ (st.readRegion failing).1.writes := by
  have here : (i, d) ∈ st.nv.dir := Region.mem_dir.2 ⟨hi, hd⟩
  have reads : StoreWrite.sys (.entry i (kept.map (·.img.record))) false ∈
      (st.readWith st.nv.readBad st.nv.readCtl st.nv.dir).writes := by
    change _ ∈ st.writes ++ List.map _ _
    refine List.mem_append_right _ (List.mem_map.2 ⟨(i, d), List.mem_filter.2 ⟨here, ?_⟩, ?_⟩)
    · have same : (readDir ((st.nv.readBad.map BadCopy.pages).getD []) st.nv.dir).find? (fun e => e.index == i) = kept := found
      dsimp only
      rw [same]
      simpa using lost
    · have same : (readDir ((st.nv.readBad.map BadCopy.pages).getD []) st.nv.dir).find? (fun e => e.index == i) = kept := found
      dsimp only
      rw [same]
  rw [Store.readRegion_eq]
  split
  · unfold Store.testFree
    change _ ∈ ((st.readWith st.nv.readBad st.nv.readCtl st.nv.dir).writes ++ _) ++ _
    exact List.mem_append_left _ (List.mem_append_left _ reads)
  · exact reads

/-- What every restart reading finds (R137). -/
theorem readRegion_asFound (st : Store) (failing : List Nat) : st.readsAsFound failing := by
  have dir : (st.readRegion failing).1.dir = readDir st.nv.badFound st.nv.dir := st.readRegion_dir failing
  have last := st.readRegion_last failing
  refine ⟨fun c hc => ?_, fun none' => readRegion_tests none', fun i d hi hd => ?_, ?_, ?_, fun e he => ?_,
    fun i k d hi hd keeps long stops => ?_⟩
  · rw [Store.readRegion_eq, hc, if_neg (by exact nofun)]
    exact ⟨rfl, rfl⟩
  · rw [last]
    exact (le_topRecord ..).2 (i, d) (Region.mem_dir.2 ⟨hi, hd⟩)
  · rw [last]
    exact (le_topRecord ..).1
  · rw [last]
    refine (topRecord_attained ..).imp_right fun ⟨x, hx, same⟩ => ?_
    obtain ⟨hi, hd⟩ := Region.mem_dir.1 hx
    exact ⟨x.1, x.2, hi, hd, same⟩
  · rw [dir] at he
    obtain ⟨x, hx, -, rfl⟩ := mem_readDir.1 he
    obtain ⟨hi, hd⟩ := Region.mem_dir.1 hx
    exact ⟨hi, by rw [show (keptEntry _ _ x).index = x.1 from rfl, hd]; rfl⟩
  · obtain ⟨count, kept⟩ := keptEntry_take keeps long stops
    have found := readDir_find hi hd
    rw [count, kept] at found
    rw [dir]
    refine ⟨fun zero e he same => ?_, fun some' => ?_, fun short => ?_⟩
    · rw [if_pos zero] at found
      exact List.find?_eq_none.1 found e he (by simpa using same)
    · rw [if_neg (Nat.ne_of_gt some')] at found
      exact List.mem_of_find?_eq_some found
    · have lost : d.pages.take k ≠ d.pages := fun same => by
        have := congrArg List.length same
        rw [List.length_take] at this
        omega
      have writes := readRegion_writes (failing := failing) hi hd found
      by_cases zero : k = 0
      · rw [if_pos zero] at writes ⊢
        exact writes nofun
      · rw [if_neg zero] at writes ⊢
        exact writes fun same => lost (Option.some.inj same)

/-! ## Format (R139) -/

/-- A store without live entries, with the BAD list and the write counts as found. -/
def Store.blank (st : Store) : Store := { st with
  bad := st.nv.badFound
  badCount := (st.nv.readBad.map BadCopy.count).getD 0
  ctlCount := (st.nv.readCtl.map CtlCopy.count).getD 0
  last := 0
  dir := []
  retiring := none }

/-- The pages that a format tests, where it reads no BAD list. -/
def Store.formatTest (st : Store) (failing : List Nat) : Store × Nat :=
  if st.nv.readBad.isNone then st.blank.pageTest dataPageList failing else (st.blank, 0)

theorem format_eq (st : Store) (failing : List Nat) : st.format failing =
    ((st.formatTest failing).1.writeBad.writeEmpty.writeCtl, (st.formatTest failing).2) := rfl

/-- The writes of a format: the BAD list, every entry, empty, the control page and the header. -/
theorem format_writes (st : Store) (h : Header) : (st.writeBad.writeEmpty.writeCtl.push (.header h false)).writes =
    st.writes ++ [.sys (.bad false) false, .sys (.bad true) false] ++
      (List.range 1024).map (fun e => .sys (.entry e none) false) ++
      [.sys (.ctl false) false, .sys (.ctl true) false, .header h false] := by
  change (((((st.writes ++ _) ++ _) ++ (List.range 1024).map fun e => StoreWrite.sys (.entry e none) false) ++ _) ++ _) ++ _ = _
  generalize (List.range 1024).map (fun e => StoreWrite.sys (.entry e none) false) = empties
  simp

/-- Pages that join a list one by one. -/
theorem foldl_insertBy_perm (l m : List Nat) : (l.foldl (fun l p => insertBy id p l) m).Perm (l ++ m) := by
  induction l generalizing m with
  | nil => exact .refl m
  | cons p l ih => exact (ih _).trans (((insertBy_perm id p m).append_left l).trans List.perm_middle)

/-- The BAD list that a page test makes anew. -/
theorem pageTest_bad {st : Store} (empty : st.bad = []) (pages failing : List Nat) :
    (st.pageTest pages failing).1.bad.Perm (pages.filter fun p => failing.contains p) ∧
      (st.pageTest pages failing).2 = (st.pageTest pages failing).1.bad.length := by
  have perm := foldl_insertBy_perm (pages.filter fun p => failing.contains p) st.bad
  have bad : (st.pageTest pages failing).1.bad.Perm (pages.filter fun p => failing.contains p) := by
    rw [empty, List.append_nil] at perm
    change (List.foldl _ st.bad _).Perm _
    rwa [empty]
  exact ⟨bad, bad.length_eq.symm⟩

/-- What a format leaves of a store in which no header is found. -/
theorem format_spec {st : Store} {failing : List Nat} (none' : st.nv.header = none) :
    let out := st.atRestart failing
    out.1 = ⟨0, .idle, defaultParams, 0, 0, []⟩ ∧ out.2.1.dir = [] ∧ out.2.1.last = 0 ∧ out.2.1.nv.sys = st.nv.sys ∧
      (∀ c, st.nv.readBad = some c → out.2.1.bad = c.pages ∧ out.2.1.nv = st.nv ∧ out.2.2 = 0) ∧
      (st.nv.readBad = none → (∀ p, p ∈ out.2.1.bad ↔ isDataPage p ∧ p ∈ failing) ∧ out.2.1.bad.Nodup ∧
        out.2.2 = out.2.1.bad.length ∧
        ∀ a, isDataPage (a / 1024) → a / 1024 ∉ failing → out.2.1.nv.mem.read a = 0) ∧
      out.2.1.writes = st.writes ++ [.sys (.bad false) false, .sys (.bad true) false] ++
        (List.range 1024).map (fun e => .sys (.entry e none) false) ++
        [.sys (.ctl false) false, .sys (.ctl true) false, .header out.1 false] := by
  have formats : st.atRestart failing = (freshHeader, (st.formatTest failing).1.writeBad.writeEmpty.writeCtl.push
      (.header freshHeader false), (st.formatTest failing).2) := by
    unfold Store.atRestart
    rw [none']
    exact congrArg (fun f : Store × Nat => (freshHeader, f.1.push (.header freshHeader false), f.2)) (format_eq st failing)
  intro out
  have hout : out = _ := formats
  clear_value out
  subst hout
  rw [format_writes]
  cases hb : st.nv.readBad with
  | some c =>
    have read : st.formatTest failing = (st.blank, 0) := if_neg (by rw [hb]; exact nofun)
    have pages : st.nv.badFound = c.pages := by
      unfold Region.badFound
      rw [hb]
      rfl
    rw [read]
    exact ⟨rfl, rfl, rfl, rfl, fun c' hc => ⟨pages.trans (congrArg BadCopy.pages (Option.some.inj hc)), rfl, rfl⟩, nofun, rfl⟩
  | none =>
    have tests : st.formatTest failing = st.blank.pageTest dataPageList failing := if_pos (by rw [hb]; rfl)
    have empty : st.blank.bad = [] := by
      change st.nv.badFound = []
      unfold Region.badFound
      rw [hb]
      rfl
    rw [tests]
    obtain ⟨bad, count⟩ := pageTest_bad empty dataPageList failing
    have zero (a : Nat) (data : isDataPage (a / 1024)) (passes : a / 1024 ∉ failing) :
        (st.blank.pageTest dataPageList failing).1.nv.mem.read a = 0 := pageTest_zero (mem_dataPageList.2 data) passes
    have frame : (st.blank.pageTest dataPageList failing).1.dir = [] ∧ (st.blank.pageTest dataPageList failing).1.last = 0 ∧
        (st.blank.pageTest dataPageList failing).1.nv.sys = st.nv.sys ∧
        (st.blank.pageTest dataPageList failing).1.writes = st.writes := ⟨rfl, rfl, rfl, rfl⟩
    generalize st.blank.pageTest dataPageList failing = tested at bad count zero frame ⊢
    obtain ⟨dir, last, sys, writes⟩ := frame
    rw [writes]
    refine ⟨rfl, dir, last, sys, nofun, fun _ => ⟨fun p => ?_, bad.nodup_iff.2 (dataPageList_nodup.filter _), count, zero⟩, rfl⟩
    refine bad.mem_iff.trans (List.mem_filter.trans ?_)
    rw [mem_dataPageList, List.contains_eq_mem, decide_eq_true_iff]

end Sys2Proof.Machine
end

section
/-!
PROOF. What lost power and a cut off write leave in the store (R16, R97, R132, R138).
-/

namespace Sys2Proof.Machine

theorem not_isDataPage_zero : ¬isDataPage 0 := by decide

/-! ## The FILLING entries are sealed LOST POWER (R138) -/

/-- A byte after the header pages of some entries have been made to show OPEN. -/
theorem read_showOpens (l : List Entry) (m : Memory) (a : Nat) :
    Memory.read (l.foldl (fun m e => m.showOpen (e.img.pages.headD 0)) m) a =
      if ∃ e ∈ l, isDataPage (e.img.pages.headD 0) ∧ a = e.img.pages.headD 0 * 1024 + 6 then 0 else m.read a := by
  have one (m : Memory) (p : Nat) : (m.showOpen p).read a = if isDataPage p ∧ a = p * 1024 + 6 then 0 else m.read a := by
    by_cases hp : isDataPage p
    · rw [Memory.read_showOpen m hp]
      change (if a = p * 1024 + 6 then 0 else m.read a) = _
      exact if_congr (and_iff_right hp).symm rfl rfl
    · unfold Memory.showOpen
      rw [if_neg hp, if_neg (fun h => hp h.1)]
  induction l generalizing m with
  | nil => simp
  | cons e l ih =>
    rw [List.foldl_cons, ih, one]
    by_cases later : ∃ e ∈ l, isDataPage (e.img.pages.headD 0) ∧ a = e.img.pages.headD 0 * 1024 + 6
    · rw [if_pos later, if_pos (later.imp fun x h => ⟨List.mem_cons_of_mem _ h.1, h.2⟩)]
    · rw [if_neg later]
      refine if_congr ?_ rfl rfl
      simp only [List.mem_cons, exists_eq_or_imp]
      exact (or_iff_left later).symm

/-- The field of one byte at offset 6 of a record stands in its header page. -/
theorem field_outcome {st : Store} {d : DirImage} {p : Nat} (head : d.pages.head? = some p)
    (zero : st.nv.mem.read (p * 1024 + 6) = 0) : st.field d 6 1 = 0 := by
  obtain ⟨rest, pages⟩ : ∃ rest, d.pages = p :: rest := by
    rcases hd : d.pages with _ | ⟨q, rest⟩
    · rw [hd] at head
      cases head
    · rw [hd] at head
      exact ⟨rest, by rw [Option.some.inj head]⟩
  have address : d.address 6 = p * 1024 + 6 := by
    unfold DirImage.address
    rw [pages]
    rfl
  change fromBytes [st.nv.mem.read (d.address (6 + 0))] = 0
  rw [show 6 + 0 = 6 from rfl, address, zero]
  rfl

/-- What the restart's fifth stage leaves of a store (R138). -/
theorem losePower_spec {st : Store} (once : (st.dir.map (·.index)).Nodup) :
    let wave := fun e : Entry => e ∈ st.dir ∧ e.img.sealed = false ∧ e.img.tag = .waveform
    st.losePower.nv.sys = st.nv.sys ∧
      (∀ e p, wave e → e.img.pages.head? = some p → isDataPage p → st.losePower.field e.img 6 1 = 0) ∧
      (∀ a, (∀ e, wave e → a ≠ e.img.pages.headD 0 * 1024 + 6) → st.losePower.nv.mem.read a = st.nv.mem.read a) ∧
      st.losePower.dir = st.dir.map (fun e => if e.img.sealed then e else { e with img := { e.img with
        sealed := true, outcome := .lostPower,
        pages := if e.img.tag = .waveform then e.img.pages.take (if e.img.verified = 0 then 1 else e.img.verified)
          else e.img.pages } }) ∧
      st.losePower.writes = st.writes ++
        (st.dir.filter fun e => !e.img.sealed).map fun e => .sys (.entry e.index (some e.img.record)) false := by
  intro wave
  have waves (e : Entry) : e ∈ (st.dir.filter fun e => !e.img.sealed).filter (fun e => e.img.tag == .waveform) ↔ wave e := by
    simp only [wave, List.mem_filter, Bool.not_eq_true', beq_iff_eq, and_assoc]
  have read (a : Nat) : st.losePower.nv.mem.read a =
      if ∃ e ∈ (st.dir.filter fun e : Entry => !e.img.sealed).filter (fun e : Entry => e.img.tag == .waveform),
        isDataPage (e.img.pages.headD 0) ∧ a = e.img.pages.headD 0 * 1024 + 6 then 0 else st.nv.mem.read a := by
    rw [Store.losePower_eq]
    exact read_showOpens _ _ a
  refine ⟨?_, fun e p he head data => ?_, fun a other => ?_, ?_, ?_⟩
  · rw [Store.losePower_eq]
  · have first : e.img.pages.headD 0 = p := by rw [List.headD_eq_head?_getD, head, Option.getD_some]
    refine field_outcome head ?_
    rw [read, if_pos ⟨e, (waves e).2 he, first.symm ▸ data, by rw [first]⟩]
  · rw [read, if_neg fun ⟨e, he, _, same⟩ => other e ((waves e).1 he) same]
  · rw [Store.losePower_eq]
    refine List.map_congr_left fun e _ => ?_
    unfold Entry.losePower
    have most : max e.img.verified 1 = if e.img.verified = 0 then 1 else e.img.verified := by
      split <;> omega
    rw [most]
  · rw [Store.losePower_eq]
    dsimp only
    rw [List.map_map]
    refine congrArg (st.writes ++ ·) (List.map_congr_left fun e he => ?_)
    have same (e : Entry) : e.losePower.index = e.index ∧ e.losePower.img.record = e.img.record := by
      unfold Entry.losePower
      split <;> exact ⟨rfl, rfl⟩
    have indices : (st.dir.map Entry.losePower).map (·.index) = st.dir.map (·.index) := by
      rw [List.map_map]
      exact List.map_congr_left fun e _ => (same e).1
    have found := find_index (indices ▸ once) (List.mem_map_of_mem (List.mem_of_mem_filter he)) (same e).1
    change StoreWrite.sys (.entry e.index (Option.map _ _)) false = _
    rw [found, Option.map_some, (same e).2]

/-! ## The header page of a capture that is cut off (R97) -/

theorem Region.entry_congr {a b : Region} {i : Nat} (h : a.read (SysItem.entry i none).address = b.read (SysItem.entry i none).address) :
    a.entry i = b.entry i := by
  unfold Region.entry
  rw [h]

/-- A cut that falls upon no system write leaves every entry as it was read. -/
theorem tornStore_entry {st : Store} (noSys : ∀ item again, st.writes.head? ≠ some (.sys item again)) (i : Nat) :
    st.tornStore.nv.entry i = st.nv.entry i := by
  unfold Store.tornStore
  split
  · rfl
  next item again _ hw => exact absurd (by rw [hw]; rfl) (noSys item again)
  next h _ _ _ =>
    obtain ⟨nv, torn, -, -, other⟩ := st.tearHeader_spec h
    rw [torn]
    exact Region.entry_congr (other _ (by rw [entry_address]; omega))
  · split <;> rfl

theorem keepHeader_entry (nv : Region) (e : Entry) (i : Nat) : (keepHeader nv e).entry i = nv.entry i :=
  Region.entry_congr (by unfold Region.read; rw [keepHeader_sys])

section
variable {nv : Region} {e : Entry} {p a : Nat} (data : isDataPage p) (ha : a / 1024 = p)
include data ha

/-- The header page of a WAVEFORM that the system region shows FILLING. -/
theorem keepHeader_here {d : DirImage} (opened : e.opened ≠ []) (hd : nv.entry e.index = some d) (record : d.record = e.img.record)
    (filling : d.sealed = false) (head : d.pages.head? = some p) :
    (keepHeader nv e).mem.read a = e.opened.getD (a % 1024) 0 := by
  have first : d.pages.headD 0 = p := by rw [List.headD_eq_head?_getD, head, Option.getD_some]
  unfold keepHeader
  rw [if_neg (by simpa using opened), hd]
  dsimp only
  rw [if_pos ⟨record, filling⟩, first]
  exact (read_writePage nv.mem e.opened a data).trans (if_pos ha)

/-- An entry with another header page leaves the byte as it was. -/
theorem keepHeader_elsewhere (other : ∀ d, nv.entry e.index = some d → d.pages.head? ≠ some p) :
    (keepHeader nv e).mem.read a = nv.mem.read a := by
  unfold keepHeader
  split
  · rfl
  · split
    next d hd =>
      split
      · have ne : d.pages.headD 0 ≠ p := fun same => other d hd <| by
          rcases hp : d.pages with _ | ⟨q, rest⟩
          · rw [hp] at same
            exact absurd (show isDataPage 0 from (show 0 = p from same) ▸ data) not_isDataPage_zero
          · rw [hp] at same
            exact congrArg some same
        by_cases q : isDataPage (d.pages.headD 0)
        · exact (read_writePage nv.mem e.opened a q).trans (if_neg fun same => ne (same.symm.trans ha))
        · unfold Memory.writePage
          rw [if_neg q]
      · rfl
    · rfl

/-- The last verified header page stands in the memory once every entry has been looked at. -/
theorem keepHeaders_here {d : DirImage} {l : List Entry} (opened : e.opened ≠ []) (hd : nv.entry e.index = some d)
    (record : d.record = e.img.record) (filling : d.sealed = false) (head : d.pages.head? = some p)
    (others : ∀ x ∈ l, x ≠ e → ∀ d', nv.entry x.index = some d' → d'.pages.head? ≠ some p)
    (here : e ∈ l ∨ nv.mem.read a = e.opened.getD (a % 1024) 0) :
    (l.foldl keepHeader nv).mem.read a = e.opened.getD (a % 1024) 0 := by
  induction l generalizing nv with
  | nil => exact here.resolve_left List.not_mem_nil
  | cons x l ih =>
    rw [List.foldl_cons]
    refine ih ((keepHeader_entry nv x _).trans hd) (fun y hy ne d' hd' =>
      others y (List.mem_cons_of_mem _ hy) ne d' ((keepHeader_entry nv x _).symm.trans hd')) ?_
    by_cases same : x = e
    · subst same
      exact .inr (keepHeader_here data ha opened hd record filling head)
    · rcases here with hmem | value
      · exact .inl ((List.mem_cons.1 hmem).resolve_left (Ne.symm same))
      · exact .inr ((keepHeader_elsewhere data ha (others x (List.mem_cons_self ..) same)).trans value)

end

/-- A capture's header page keeps its last verified values through a cut (R97; log 50). -/
theorem cut_keepsHeader {st : Store} {e : Entry} {d : DirImage} {p : Nat} (he : e ∈ st.dir) (opened : e.opened ≠ [])
    (hd : st.nv.entry e.index = some d) (record : d.record = e.img.record) (filling : d.sealed = false)
    (head : d.pages.head? = some p) (data : isDataPage p)
    (others : ∀ x ∈ st.dir, x ≠ e → ∀ d', st.nv.entry x.index = some d' → d'.pages.head? ≠ some p)
    (noSys : ∀ item again, st.writes.head? ≠ some (.sys item again)) {a : Nat} (ha : a / 1024 = p) :
    st.cut.nv.mem.read a = e.opened.getD (a % 1024) 0 := by
  rw [Store.cut_eq]
  exact keepHeaders_here data ha opened ((tornStore_entry noSys _).trans hd) record filling head
    (fun x hx ne d' hd' => others x hx ne d' ((tornStore_entry noSys _).symm.trans hd')) (.inl he)

end Sys2Proof.Machine
end

section
/-!
PROOF. What a restart reads from the records: the sequence counter, the notes table and the interval counter (R16, R100, R153).
-/

namespace Sys2Proof.Machine

/-! ## The sequence counter (R16 stage 7) -/

theorem foldl_max_spec (l : List Nat) (m : Nat) : m ≤ l.foldl max m ∧ (∀ x ∈ l, x ≤ l.foldl max m) ∧ (l.foldl max m = m ∨ l.foldl max m ∈ l) := by
  induction l generalizing m with
  | nil => simp
  | cons a l ih =>
    obtain ⟨above, all, attained⟩ := ih (max m a)
    rw [List.foldl_cons]
    refine ⟨(le_max_left m a).trans above, List.forall_mem_cons.2 ⟨(le_max_right m a).trans above, all⟩, ?_⟩
    rcases attained with same | mem
    · rcases max_choice m a with h | h
      · exact .inl (same.trans h)
      · exact .inr (List.mem_cons.2 (.inl (same.trans h)))
    · exact .inr (List.mem_cons_of_mem _ mem)

theorem names_iff {st : Store} {own n : Nat} : st.names own n ↔ n ∈ st.dir.filterMap (st.ownSequence own) := by
  rw [List.mem_filterMap]
  refine exists_congr fun e => and_congr_right fun _ => ?_
  unfold Store.ownSequence
  cases e.img.tag <;> simp [and_assoc]

theorem restoredSeq_spec (st : Store) (own : Nat) :
    (∀ n, st.names own n → (∀ m, st.names own m → m ≤ n) → st.restoredSeq own = if n = 65535 then 1 else n + 1) ∧
      ((∀ n, ¬st.names own n) → st.restoredSeq own = 1) := by
  obtain ⟨-, all, attained⟩ := foldl_max_spec (st.dir.filterMap (st.ownSequence own)) 0
  refine ⟨fun n hn most => ?_, fun none' => ?_⟩
  · have top : (st.dir.filterMap (st.ownSequence own)).foldl max 0 = n := by
      refine le_antisymm ?_ (all n (names_iff.1 hn))
      rcases attained with zero | mem
      · rw [zero]
        exact Nat.zero_le n
      · exact most _ (names_iff.2 mem)
    unfold Store.restoredSeq
    rw [top]
    rfl
  · have empty : st.dir.filterMap (st.ownSequence own) = [] :=
      List.eq_nil_iff_forall_not_mem.2 fun n hn => none' n (names_iff.2 hn)
    unfold Store.restoredSeq
    rw [empty]
    rfl

/-! ## The records of a tag that are not LOST POWER -/

/-- Two lists that rise by record and have the same members are the same. -/
theorem eq_of_rising {l q : List Entry} (hl : l.Pairwise fun a b => a.img.record < b.img.record)
    (hq : q.Pairwise fun a b => a.img.record < b.img.record) (same : ∀ e, e ∈ l ↔ e ∈ q) : l = q := by
  have once {l : List Entry} (h : l.Pairwise fun a b => a.img.record < b.img.record) : l.Nodup :=
    h.imp fun lt eq => absurd (congrArg (·.img.record) eq) (Nat.ne_of_lt lt)
  refine ((List.perm_ext_iff_of_nodup (once hl) (once hq)).2 same).eq_of_pairwise (fun a b _ _ ab ba => ?_) hl hq
  exact absurd ab (Nat.not_lt.2 (Nat.le_of_lt ba))

/-- The SEALED records of a tag that hold what their producer wrote, by rising record number. -/
theorem sealedOf_whole {st : Store} (nodup : (st.dir.map (·.img.record)).Nodup) (t : Tag) :
    ((st.sealedOf t).filter fun e => e.img.outcome != .lostPower).Pairwise (fun a b => a.img.record < b.img.record) ∧
      ∀ e, e ∈ (st.sealedOf t).filter (fun e => e.img.outcome != .lostPower) ↔
        e ∈ st.dir ∧ e.img.tag = t ∧ e.img.sealed = true ∧ e.img.outcome ≠ .lostPower := by
  refine ⟨(List.pairwise_map.1 (sealedOf_rises nodup t)).filter _, fun e => ?_⟩
  unfold Store.sealedOf
  simp only [List.mem_filter, mem_sortBy, Bool.and_eq_true, beq_iff_eq, bne_iff_ne, ne_eq, and_assoc]

/-! ## The interval counter (R100) -/

theorem newestInterval_spec {st : Store} (nodup : (st.dir.map (·.img.record)).Nodup) :
    let whole := fun e : Entry => e ∈ st.dir ∧ e.img.tag = .interval ∧ e.img.sealed = true ∧ e.img.outcome ≠ .lostPower
    (∀ e, whole e → (∀ x, whole x → x.img.record ≤ e.img.record) → st.newestInterval = st.field e.img 4 2) ∧
      ((∀ e, ¬whole e) → st.newestInterval = 0) := by
  intro whole
  obtain ⟨rises, mem⟩ := sealedOf_whole nodup .interval
  unfold Store.newestInterval
  generalize (st.sealedOf .interval).filter (fun e => e.img.outcome != .lostPower) = q at rises mem ⊢
  refine ⟨fun e he most => ?_, fun none' => ?_⟩
  · have last : q.getLast? = some e := by
      rcases q.eq_nil_or_concat with rfl | ⟨before, x, rfl⟩
      · exact absurd ((mem e).2 he) List.not_mem_nil
      · rw [List.concat_eq_append] at rises mem ⊢
        rw [List.getLast?_concat]
        rcases List.mem_append.1 ((mem e).2 he) with hb | hx
        · have below := (List.pairwise_append.1 rises).2.2 e hb x (List.mem_singleton_self x)
          exact absurd (most x ((mem x).1 (by simp))) (Nat.not_le.2 below)
        · rw [List.mem_singleton.1 hx]
    rw [last]
  · have empty : q = [] := List.eq_nil_iff_forall_not_mem.2 fun e he => none' e ((mem e).1 he)
    rw [empty]
    rfl

/-! ## The notes table (R153) -/

/-- The entry that a NOTE record makes at a rebuild. -/
def Store.noteEntry (st : Store) (e : Entry) : NoteEntry := { (st.noteOf e.img).entry with record := some e.img.record }

/-- A record that is no CORRECTION joins a table with room. -/
theorem rebuildOne_joins {st : Store} {done : List Entry} {e : Entry} (kind : st.field e.img 1 1 ≠ 3) (room : done.length < 32)
    (sites : st.field e.img 1 1 = 1 → (done.filter fun x => st.field x.img 1 1 == 1).length < 4) :
    rebuildOne st (done.map st.noteEntry) e = (done ++ [e]).map st.noteEntry := by
  have count : ((done.map st.noteEntry).filter (·.site)).length = (done.filter fun x => st.field x.img 1 1 == 1).length := by
    rw [List.filter_map, List.length_map]
    rfl
  have joined : applyNote (done.map st.noteEntry) (st.noteOf e.img) = (done.map st.noteEntry ++ [(st.noteOf e.img).entry], 0) := by
    refine (if_neg kind).trans (joinNotes_room (by rwa [List.length_map]) fun site => ?_)
    rw [count]
    exact sites (by simpa [Note.entry, Store.noteOf] using site)
  unfold rebuildOne
  dsimp only
  rw [joined, List.map_append, List.map_append]
  refine congrArg₂ (· ++ ·) ?_ ?_
  · refine (List.map_congr_left fun x hx => if_neg fun h => ?_).trans (List.map_id _)
    obtain ⟨y, -, rfl⟩ := List.mem_map.1 hx
    simp [Store.noteEntry] at h
  · rw [List.map_singleton, List.map_singleton, if_pos ⟨kind, rfl, rfl⟩]
    rfl

/-- Records that are no CORRECTION, 32 at most and 4 SITE at most, each make their entry. -/
theorem foldl_rebuildOne {st : Store} (done used : List Entry) (kinds : ∀ e ∈ used, st.field e.img 1 1 ≠ 3)
    (few : (done ++ used).length ≤ 32) (sites : ((done ++ used).filter fun x => st.field x.img 1 1 == 1).length ≤ 4) :
    used.foldl (rebuildOne st) (done.map st.noteEntry) = (done ++ used).map st.noteEntry := by
  induction used generalizing done with
  | nil => simp
  | cons e used ih =>
    obtain ⟨kind, rest⟩ := List.forall_mem_cons.1 kinds
    have one : rebuildOne st (done.map st.noteEntry) e = (done ++ [e]).map st.noteEntry := by
      refine rebuildOne_joins kind ?_ fun site => ?_
      · rw [List.length_append, List.length_cons] at few
        omega
      · rw [List.filter_append, List.filter_cons, if_pos (by simpa using site), List.length_append, List.length_cons] at sites
        omega
    rw [List.foldl_cons, one, ih (done ++ [e]) rest (by simpa using few) (by simpa using sites)]
    simp

theorem rebuildNotes_spec {st : Store} {checkpoint : Nat} {l : List Entry} (nodup : (st.dir.map (·.img.record)).Nodup)
    (mem : ∀ e, e ∈ l ↔ e ∈ st.dir ∧ e.img.tag = .note ∧ e.img.sealed = true ∧ e.img.outcome ≠ .lostPower)
    (rises : l.Pairwise fun a b => a.img.record < b.img.record) :
    let used := lastOf 32 l
    (∀ e ∈ used, st.field e.img 1 1 = 1 ∨ st.field e.img 1 1 = 2) →
    (used.filter fun e => st.field e.img 1 1 == 1).length ≤ 4 →
    st.rebuildNotes checkpoint = used.map fun e =>
      let span := st.field e.img 3 1
      let received := st.field e.img 8 4
      let stop := min (received + 60000 * span) 4294967295
      let ends := st.field e.img 1 1 = 2 ∧ 0 < span
      ⟨st.field e.img 4 2, st.field e.img 1 1 == 1, st.bytes e.img 14 (st.field e.img 13 1), received,
        if ends then some stop else none, decide (ends ∧ stop ≤ checkpoint), none, some e.img.record⟩ := by
  intro used kinds sites
  obtain ⟨rises', mem'⟩ := sealedOf_whole nodup .note
  have whole : (st.sealedOf .note).filter (fun e => e.img.outcome != .lostPower) = l :=
    eq_of_rising rises' rises fun e => (mem' e).trans (mem e).symm
  have few : used.length ≤ 32 := by
    change (l.drop (l.length - 32)).length ≤ 32
    rw [List.length_drop]
    omega
  have joins := foldl_rebuildOne (st := st) [] used (fun e he => by rcases kinds e he with h | h <;> omega) few sites
  unfold Store.rebuildNotes
  rw [whole]
  change (used.foldl (rebuildOne st) (List.map st.noteEntry [])).map _ = _
  rw [joins, List.nil_append, List.map_map]
  refine List.map_congr_left fun e he => ?_
  change (st.noteEntry e).expireAt checkpoint = _
  unfold Store.noteEntry Note.entry Store.noteOf
  dsimp only
  by_cases ends : st.field e.img 1 1 = 2 ∧ 0 < st.field e.img 3 1
  · have site : (st.field e.img 1 1 == 1) = false := by rw [ends.1]; rfl
    simp only [if_pos ends, site]
    by_cases due : min (st.field e.img 8 4 + 60000 * st.field e.img 3 1) 4294967295 ≤ checkpoint
    · rw [expireAt_due rfl rfl rfl due, decide_eq_true ⟨ends, due⟩]
      rfl
    · rw [expireAt_early rfl (Nat.not_le.1 due), decide_eq_false fun h => due h.2]
      rfl
  · simp only [if_neg ends]
    rw [decide_eq_false fun h => ends h.1]
    rfl

end Sys2Proof.Machine
end

section
/-!
PROOF. What a restart leaves of the blocks, and the restart that waits for parking (R15 to R17, R20, R21).
-/

namespace Sys2Proof.Machine

/-! ## The inputs stay through the end of a write -/

section
variable (s : State)

theorem recordFailed_pins (e : Entry) : (s.recordFailed e).pins = s.pins := by
  unfold State.recordFailed
  split <;> rfl

theorem afterPage_pins : s.afterPage.pins = s.pins := by
  unfold State.afterPage
  split
  next q _ =>
    dsimp only
    split
    · exact (enterPark_frame (s.finishOpening q)).2.1
    · rfl
  · split
    · exact (runPark_frame s).2.1
    · rfl

theorem retired_pins (x : Retiring) : (s.retired x).pins = s.pins := by
  unfold State.retired State.told
  dsimp only
  split
  · split
    · rfl
    · exact recordFailed_pins ..
  · rfl

theorem settleRetiring_pins : s.settleRetiring.pins = s.pins := by
  cases hx : s.store.retiring with
  | none =>
    unfold State.settleRetiring
    rw [hx]
  | some x =>
    cases hl : x.listed with
    | true =>
      unfold State.settleRetiring
      rw [hx]
      exact congrArg State.pins (if_pos hl)
    | false =>
      rw [settleRetiring_retired hx hl]
      split
      · exact retired_pins s x
      · exact (afterPage_pins _).trans (retired_pins s x)

theorem sysEnded_pins (item : SysItem) (v : Bool) : (s.sysEnded item v).pins = s.pins := by
  unfold State.sysEnded
  split
  · rfl
  · split
    · exact settleRetiring_pins s
    · rfl
  · rfl

theorem sysDone_pins (ok : Bool) : (s.sysDone ok).pins = s.pins := by
  unfold State.sysDone
  split
  · split
    · exact sysEnded_pins ..
    · split
      · exact sysEnded_pins ..
      · rfl
  · rfl

theorem drain_pins (which : StoreWrite → Bool) (n : Nat) : (State.drain which n s).pins = s.pins := by
  induction n generalizing s with
  | zero => rfl
  | succ n ih =>
    unfold State.drain
    split
    · exact (ih _).trans (sysDone_pins s true)
    · rfl

theorem pageEnded_pins (r pos : Nat) (bs : List Byte) (next : PageNext) (ok : Bool) :
    (s.pageEnded r pos bs next ok).pins = s.pins := by
  unfold State.pageEnded
  split
  · split
    · exact afterPage_pins s
    · split
      · exact afterPage_pins (s.pageVerified r pos bs next)
      · split
        · unfold State.pageFailed
          dsimp only
          split
          · rfl
          · exact recordFailed_pins ..
        · exact afterPage_pins s
  · exact afterPage_pins s

theorem pageDone_pins (ok : Bool) : (s.pageDone ok).pins = s.pins := by
  have reached : (s.reach StoreWrite.isPage).settleRetiring.pins = s.pins := (settleRetiring_pins _).trans (drain_pins s ..)
  unfold State.pageDone
  split
  · dsimp only
    split
    · exact (pageEnded_pins ..).trans reached
    · exact reached
  · rfl

theorem headerDone_pins (ok : Bool) : (s.headerDone ok).pins = s.pins := drain_pins s ..

end

/-! ## The restart (R16, R17) -/

theorem atRestart_header (st : Store) (failing : List Nat) : (st.atRestart failing).1 = st.nv.header.getD freshHeader := by
  unfold Store.atRestart
  cases st.nv.header <;> rfl

/-- The part after a restart, from the header found, the store found and the number of pages that a page test found BAD. -/
def State.restartedWith (s : State) (c : Cause) (i : RestartInputs) (found : Header) (st : Store) (bad : Nat) : State :=
  let hdr := found.restarted c
  let rejoins := hdr.state == .rejoining
  let base : State := { s with mode := .running, straps := i.straps }
  { s with
    mode := .running
    straps := i.straps
    lastCause := c
    sup := { releaseTimer := none, restartDue := none, parkWait := false, parkDue := false, opening := none, sealing := none }
    clock := { s.clock with survey := found.checkpoint, phase := 0 }
    hdr := hdr
    ckpt := if rejoins then some (s.clock.now + ms 10000) else none
    tb := if rejoins then Timebase.start hdr.params.hz s.clock.now
      else { Timebase.start hdr.params.hz s.clock.now with state := .stopped }
    lev := freshLevel base.channels
    ev := { event := none, seq := st.restoredSeq base.stationNo }
    cap := { ring := [], slots := [] }
    har := freshHarmonic (if rejoins then st.newestInterval else 0)
    store := st.push (.header hdr false)
    notes := st.rebuildNotes found.checkpoint
    rep := { jobs := [], lastJob := 0 }
    prn := freshPrinter i.straps.printer
    line := { queue := [], roster := [], muted := base.ownNumber.isNone,
              beaconTimer := base.ownNumber.map fun n => s.clock.now + ms (50 * n) }
    ctr := { badPages := satAdd 0 bad } }

/-- What a restart does with the header and the store that it reads. -/
theorem runRestart_read (s : State) (c : Cause) (i : RestartInputs) : s.runRestart c i =
    s.restartedWith c i (s.store.cut.atRestart i.failingPages).1 (s.store.cut.atRestart i.failingPages).2.1.losePower
      (s.store.cut.atRestart i.failingPages).2.2 := by
  unfold State.runRestart
  dsimp only [State.cutOff]
  generalize s.store.cut.atRestart i.failingPages = read
  obtain ⟨⟨number, state, params, checkpoint, watermark, log⟩, st, bad⟩ := read
  cases state with
  | idle => rfl
  | recording => rfl
  | rejoining => rfl
  | closed => rfl

theorem runRestart_eq (s : State) (c : Cause) (i : RestartInputs) : s.runRestart c i =
    s.restartedWith c i s.foundHeader (s.foundStore i) (s.store.cut.atRestart i.failingPages).2.2 := by
  have found : (s.store.cut.atRestart i.failingPages).1 = s.foundHeader := atRestart_header ..
  have read := runRestart_read s c i
  rw [found] at read
  exact read

/-- A restart pins nothing and leaves nothing FILLING. -/
theorem foundStore_dir (s : State) (i : RestartInputs) : ∀ e ∈ (s.foundStore i).dir, e.pins = 0 ∧ e.img.sealed = true := by
  obtain ⟨-, -, -, -, -, -, pins⟩ := Store.restart_ok s.store i.failingPages
  intro e he
  have none' : e.pins = 0 := pins e he
  refine ⟨none', ?_⟩
  unfold State.foundStore at he
  rw [Store.losePower_eq] at he
  obtain ⟨x, -, rfl⟩ := List.mem_map.1 he
  exact x.losePower_sealed

theorem ownNumber_isNone {s : State} : s.ownNumber.isNone = true ↔ s.straps.station = 0 ∨ s.straps.station = 15 := by
  have small := s.straps.station.isLt
  have zero : s.straps.station = 0 ↔ s.straps.station.toNat = 0 := by rw [BitVec.toNat_eq]; rfl
  have last : s.straps.station = 15 ↔ s.straps.station.toNat = 15 := by rw [BitVec.toNat_eq]; rfl
  unfold State.ownNumber
  rw [zero, last]
  split
  next h => exact iff_of_false (by exact nofun) (by omega)
  next h => exact iff_of_true rfl (by omega)

/-- What a restart leaves of the blocks (R16, R17). -/
theorem runRestart_from (s : State) (c : Cause) (i : RestartInputs) : (s.runRestart c i).restartedFrom s c i := by
  rw [runRestart_eq]
  have rejoins (h : Header) : (h.state == .rejoining) = decide (h.state = .rejoining) := by
    cases h.state <;> rfl
  refine ⟨rfl, rfl, rfl, rfl, rfl, rfl, ?_, ?_, rfl, rfl, rfl, rfl, ?_, rfl, ?_, foundStore_dir s i, rfl, rfl, rfl, rfl, ?_, rfl, rfl⟩
  all_goals
    unfold State.restartedWith
    dsimp only
  · rw [rejoins]
    by_cases h : (s.foundHeader.restarted c).state = .rejoining
    · rw [if_pos h, if_pos (decide_eq_true h)]
      rfl
    · rw [if_neg h, if_neg (by simpa using h)]
  · split <;> rfl
  · rw [rejoins]
    simp only [decide_eq_true_eq]
  · rw [rejoins]
    simp only [decide_eq_true_eq]
  · exact ownNumber_isNone (s := { s with mode := .running, straps := i.straps })

/-! ## A restart that ends with SUPPLY WARN asserted (R21) -/

/-- The writes that the restart reading, or a format, hands over are no page writes. -/
theorem atRestart_writes {st : Store} (none' : st.writes = []) (failing : List Nat) :
    (∀ w ∈ (st.atRestart failing).2.1.writes, w.isPage = false) ∧ (st.atRestart failing).2.1.retiring = none := by
  cases found : st.nv.header with
  | none =>
    obtain ⟨-, -, -, -, -, -, writes⟩ := format_spec (failing := failing) found
    refine ⟨fun w hw => ?_, ?_⟩
    · rw [writes, none'] at hw
      simp only [List.nil_append, List.mem_append, List.mem_cons, List.mem_map, List.not_mem_nil, or_false] at hw
      rcases hw with (hw | ⟨i, -, rfl⟩) | rfl | rfl | rfl
      · rcases hw with rfl | rfl <;> rfl
      all_goals rfl
    · unfold Store.atRestart
      rw [found]
      change (st.formatTest failing).1.retiring = none
      unfold Store.formatTest
      split <;> rfl
  | some h =>
    have reads : (st.atRestart failing).2.1 = (st.readRegion failing).1 := by
      unfold Store.atRestart
      rw [found]
    rw [reads, Store.readRegion_eq]
    generalize st.nv.dir = live
    have writes : ∀ w ∈ (st.readWith st.nv.readBad st.nv.readCtl live).writes, w.isPage = false := by
      intro w hw
      change w ∈ st.writes ++ List.map _ _ at hw
      rw [none', List.nil_append] at hw
      obtain ⟨x, -, rfl⟩ := List.mem_map.1 hw
      rfl
    split
    · refine ⟨fun w hw => ?_, rfl⟩
      change w ∈ ((st.readWith st.nv.readBad st.nv.readCtl live).writes ++ [_]) ++ [_] at hw
      simp only [List.mem_append, List.mem_singleton] at hw
      rcases hw with (hw | rfl) | rfl
      · exact writes w hw
      all_goals rfl
    · exact ⟨writes, rfl⟩

/-- The writes that a restart hands over are no page writes. -/
theorem foundStore_writes (s : State) (i : RestartInputs) : (∀ w ∈ (s.foundStore i).writes, w.isPage = false) ∧
    (s.foundStore i).retiring = none := by
  have read := atRestart_writes s.store.cut_writes i.failingPages
  unfold State.foundStore
  generalize (s.store.cut.atRestart i.failingPages).2.1 = st at read ⊢
  rw [Store.losePower_eq]
  refine ⟨fun w hw => ?_, read.2⟩
  rcases List.mem_append.1 hw with hw | hw
  · exact read.1 w hw
  · obtain ⟨x, -, rfl⟩ := List.mem_map.1 hw
    rfl

/-- Parking of a part in which nothing is open, no job stands and no page write waits. -/
theorem enterPark_quiet {s : State} (pages : ∀ w ∈ s.store.writes, w.isPage = false) (retiring : s.store.retiring = none)
    (slots : s.cap.slots = []) (event : s.ev.event = none) (accum : s.har.accum = none) (jobs : s.rep.jobs = []) :
    s.enterPark = { s with
      mode := .parked
      sup := { s.sup with parkDue := false, parkWait := false, sealing := none }
      har := s.noInterval
      hdr := s.parkedHeader
      ckpt := none
      tb := { s.tb with state := .stopped }
      store := s.store.push (.header s.parkedHeader false)
      line := { s.line with queue := [], beaconTimer := none }
      prn := { s.prn with inactivity := none, goTimer := none } } := by
  let p : State := { s with mode := .parked, line := { s.line with queue := [] }, sup := { s.sup with parkDue := false } }
  have free : s.store.pageUnderWay = false := by
    unfold Store.pageUnderWay
    rw [retiring]
    rcases hw : s.store.writes with _ | ⟨w, ws⟩
    · rfl
    · exact pages w (by rw [hw]; exact List.mem_cons_self ..)
  have kept : s.store.writes.filter s.store.keptAtParking = s.store.writes := List.filter_eq_self.2 fun w hw => by
    cases w with
    | page r pos bs next => exact absurd (pages _ hw) (show ¬true = false by decide)
    | sys item again => rfl
    | header h again => rfl
  have runs : s.enterPark = p.runPark := if_neg (by rw [show p.store.pageUnderWay = false from free]; decide)
  have base : p.parkBase = ({ p with sup := { p.sup with parkWait := false } } : State) := by
    change ({ p with
      sup := { p.sup with parkWait := false }
      store := { s.store with writes := s.store.writes.filter s.store.keptAtParking } } : State) = _
    rw [kept]
  have unchanged : p.parkSealed = ({ p with sup := { p.sup with parkWait := false } } : State) := by
    have event' : p.parkBase.sealEvent 3 p.parkBase.clock.survey = p.parkBase := (sealEvent_sealed p.parkBase 3).1 event
    have slots' : p.parkBase.cap.slots = [] := slots
    unfold State.parkSealed State.sealedState State.sealCaptures
    rw [event', slots']
    exact base
  rcases runPark_cases p with ⟨-, t⟩ | ⟨waits, -⟩
  · rw [runs, t, finishPark_eq, unchanged, stopHarmonic_none (by exact accum)]
    dsimp only
    have empty : ({ s.rep with jobs := [] } : Report) = s.rep := by rw [← jobs]
    rw [show p.rep.jobs = [] from jobs, empty]
    rfl
  · exact absurd (fun r hr => absurd hr (by rw [runningRecords_none (by simp [p, slots])]; simp)) waits

/-- A restart that ends with SUPPLY WARN asserted leaves the part PARKED. -/
theorem runRestart_parked (s : State) (c : Cause) (i : RestartInputs) : ((s.runRestart c i).enterPark).parkedAfter s c i := by
  obtain ⟨pages, retiring⟩ := foundStore_writes s i
  rw [runRestart_eq]
  have quiet := enterPark_quiet (s := s.restartedWith c i s.foundHeader (s.foundStore i) (s.store.cut.atRestart i.failingPages).2.2)
    (fun w hw => by
      rcases List.mem_append.1 hw with hw | hw
      · exact pages w hw
      · rw [List.mem_singleton.1 hw]
        rfl) retiring rfl rfl rfl rfl
  have header : (s.restartedWith c i s.foundHeader (s.foundStore i) (s.store.cut.atRestart i.failingPages).2.2).parkedHeader =
      s.foundHeader.restarted c := rfl
  rw [quiet, header]
  unfold State.restartedWith
  dsimp only
  refine ⟨rfl, rfl, rfl, rfl, rfl, rfl, rfl, rfl, rfl, rfl, rfl, rfl, rfl, rfl, ?_, rfl, rfl, rfl, rfl, rfl, rfl⟩
  unfold freshPrinter
  rfl

theorem restart_released {s : State} (warn : s.pins.supplyWarn = false) (c : Cause) (i : RestartInputs) :
    s.restart c i = s.runRestart c i := by
  have pins : (s.runRestart c i).pins = s.pins := by rw [runRestart_eq]; rfl
  unfold State.restart
  dsimp only
  rw [pins, if_neg (by rw [warn]; decide)]

theorem restart_warned {s : State} (warn : s.pins.supplyWarn = true) (c : Cause) (i : RestartInputs) :
    s.restart c i = (s.runRestart c i).enterPark := by
  have pins : (s.runRestart c i).pins = s.pins := by rw [runRestart_eq]; rfl
  unfold State.restart
  dsimp only
  rw [pins, if_pos warn]

/-! ## The restart that waits for the end of parking (R21) -/

theorem afterWrite_due {s : State} {i : RestartInputs} (sealing : s.sup.sealing = none) (due : s.sup.restartDue = some i) :
    s.afterWrite = if s.parkingDone then s.restart .supplyDip i else s := by
  have goes : s.sealingGoesOn = s := by
    unfold State.sealingGoesOn
    rw [sealing]
  unfold State.afterWrite
  dsimp only
  rw [goes, due]

theorem parkingDone_eq {s : State} (parked : s.mode = .parked) (wait : s.sup.parkWait = false) (sealing : s.sup.sealing = none) :
    s.parkingDone = s.store.writes.isEmpty := by
  unfold State.parkingDone
  rw [parked, wait, sealing]
  rfl

/-- The end of a write of a PARKED part for which a restart is due: the last write is followed by it. -/
theorem endsAWrite_due {c : Instr} {i : RestartInputs} {s : State} (ends : endsAWrite c) (parked : s.mode = .parked)
    (due : s.sup.restartDue = some i) (wait : s.sup.parkWait = false) (sealing : s.sup.sealing = none)
    (opening : s.sup.opening = none) (warn : s.pins.supplyWarn = false) :
    ∃ t u, exec c s = .next t ∧ exec c { s with sup := { s.sup with restartDue := none } } = .next u ∧
      (u.store.writes = [] → t.restartedFrom u .supplyDip i) ∧ (u.store.writes ≠ [] → t = { u with sup := s.sup }) := by
  obtain ⟨f, leaves, pins, run⟩ : ∃ f, leavesSup f ∧ (∀ s : State, (f s).pins = s.pins) ∧
      ∀ s : State, s.mode ≠ .off → exec c s = .next (f s).afterWrite := by
    obtain ⟨ok, rfl | rfl | rfl⟩ := ends
    · exact ⟨_, pageDone_leavesSup ok, fun s => pageDone_pins s ok, fun s on => congrArg _ (if_neg on)⟩
    · exact ⟨_, sysDone_leavesSup ok, fun s => sysDone_pins s ok, fun s on => congrArg _ (if_neg on)⟩
    · exact ⟨_, headerDone_leavesSup ok, fun s => headerDone_pins s ok, fun s on => congrArg _ (if_neg on)⟩
  let quietly : State := { s with sup := { s.sup with restartDue := none } }
  obtain ⟨⟨sup, mode⟩, change⟩ := leaves quietly ⟨opening, wait⟩
  have on : s.mode ≠ .off := by rw [parked]; decide
  have same : f s = { f quietly with sup := s.sup } := change s.sup ⟨opening, wait⟩
  have warn' : (f quietly).pins.supplyWarn = false := by rw [pins]; exact warn
  refine ⟨_, f quietly, run s on, ?_, fun last => ?_, fun more => ?_⟩
  · rw [run quietly on, afterWrite_idle (by rw [sup]; exact sealing) (by rw [sup])]
  all_goals rw [same, afterWrite_due (by exact sealing) (by exact due),
    parkingDone_eq (by exact mode.trans parked) (by exact wait) (by exact sealing)]
  · rw [if_pos (by exact List.isEmpty_iff.2 last), restart_released (by exact warn')]
    exact runRestart_from { f quietly with sup := s.sup } .supplyDip i
  · rw [if_neg (by exact fun empty => more (List.isEmpty_iff.1 empty))]

/-- Settles O10: the restarts (`runRestart_from`, `runRestart_parked`, `endsAWrite_due`), the reading (`readRegion_asFound`,
`format_spec`), and what is read from the store (`losePower_spec`, `cut_keepsHeader`, `restoredSeq_spec`, `rebuildNotes_spec`,
`newestInterval_spec`). -/
theorem restartLeavesTheBlocks : Obligations.RestartLeavesTheBlocks := by
  unfold Obligations.RestartLeavesTheBlocks
  refine ⟨fun i s => ⟨fun warn => ⟨?_, fun on => ?_, fun d timer done => ?_⟩, fun warn => ⟨?_, fun on => ?_⟩⟩,
    fun i s h retried rest parked due wait sealing warn here => ?_,
    fun c i s ends parked due wait sealing opening warn => endsAWrite_due ends parked due wait sealing opening warn,
    fun nv => ⟨readBad_eq nv, readCtl_eq nv⟩, readRegion_asFound, fun st failing none' => format_spec none',
    fun st once => losePower_spec once,
    fun st e d p he opened hd record filling head data others noSys a ha =>
      cut_keepsHeader he opened hd record filling head data others noSys ha,
    restoredSeq_spec, fun st checkpoint l nodup mem rises => rebuildNotes_spec nodup mem rises, fun st nodup => newestInterval_spec nodup⟩
  · exact ⟨_, congrArg Host.Outcome.next (restart_released warn .powerOn i), runRestart_from s .powerOn i⟩
  · exact ⟨_, congrArg Host.Outcome.next ((if_neg on).trans (restart_released warn .pinReset i)), runRestart_from s .pinReset i⟩
  · have pins : (s.passTo d).pins = s.pins := passTo_pins s d
    have runs : exec (.releaseTimer i) s = .next (if (s.passTo d).parkingDone then
        State.restart { s.passTo d with sup := { (s.passTo d).sup with releaseTimer := none } } .supplyDip i
      else { s.passTo d with sup := { (s.passTo d).sup with releaseTimer := none, restartDue := some i } }) := by
      change execReleaseTimer i s = _
      unfold execReleaseTimer
      rw [timer]
      rfl
    rw [if_pos done] at runs
    generalize s.passTo d = q at pins runs ⊢
    rw [restart_released (by exact (congrArg Pins.supplyWarn pins).trans warn)] at runs
    exact ⟨_, runs, runRestart_from { q with sup := { q.sup with releaseTimer := none } } .supplyDip i⟩
  · exact ⟨_, congrArg Host.Outcome.next (restart_warned warn .powerOn i), runRestart_parked s .powerOn i⟩
  · exact ⟨_, congrArg Host.Outcome.next ((if_neg on).trans (restart_warned warn .pinReset i)), runRestart_parked s .pinReset i⟩
  · intro written
    have done : s.headerDone true = written := (headerDone_front here true).trans rfl
    have on : s.mode ≠ .off := by rw [parked]; decide
    have run : exec (.headerWriteComplete true) s = .next written.afterWrite := by
      rw [← done]
      exact congrArg _ (if_neg on)
    rw [afterWrite_due (by exact sealing) (by exact due), parkingDone_eq (by exact parked) (by exact wait) (by exact sealing)] at run
    refine ⟨fun last => ⟨_, run, ?_⟩, fun more => run.trans (congrArg _ ?_)⟩
    · rw [if_pos (by exact List.isEmpty_iff.2 last), restart_released (by exact warn)]
      exact runRestart_from written .supplyDip i
    · exact if_neg fun empty => more (List.isEmpty_iff.1 empty)

end Sys2Proof.Machine
end

section
/-!
PROOF. A frame's bits come back whole: the fields, the stuffing, the CRC and the end mark (R180, R181, R187).
-/

namespace Sys2Proof.Machine

/-! ## Fields (R181) -/

@[simp] theorem fieldBits_length (w n : Nat) : (fieldBits w n).length = w := by
  induction w with
  | zero => rfl
  | succ w ih => exact congrArg (· + 1) ih

theorem bitsValue_fieldBits (w n : Nat) : bitsValue (fieldBits w n) = n % 2 ^ w := by
  have from' (a : Nat) : (fieldBits w n).foldl (fun a b => 2 * a + b.toNat) a = a * 2 ^ w + n % 2 ^ w := by
    induction w generalizing a with
    | zero => simp [fieldBits, Nat.mod_one]
    | succ w ih =>
      rw [fieldBits, List.foldl_cons, ih, Nat.mod_pow_succ, ← Nat.toNat_testBit, Nat.pow_succ]
      ring
  exact (from' 0).trans (by rw [Nat.zero_mul, Nat.zero_add])

/-- A field read back as bits of its own width. -/
theorem ofNat_fieldBits {w : Nat} (x : BitVec w) : BitVec.ofNat w (bitsValue (fieldBits w x.toNat)) = x := by
  rw [bitsValue_fieldBits, Nat.mod_eq_of_lt x.isLt, BitVec.ofNat_toNat, BitVec.setWidth_eq]

theorem payloadBits_cons (b : Byte) (p : List Byte) : payloadBits (b :: p) = fieldBits 8 b.toNat ++ payloadBits p := List.flatMap_cons ..

@[simp] theorem payloadBits_length (p : List Byte) : (payloadBits p).length = 8 * p.length := by
  induction p with
  | nil => rfl
  | cons b p ih =>
    rw [payloadBits_cons, List.length_append, fieldBits_length, ih, List.length_cons]
    omega

theorem bytesOfBits_payloadBits (p : List Byte) : bytesOfBits p.length (payloadBits p) = p := by
  induction p with
  | nil => rfl
  | cons b p ih =>
    rw [payloadBits_cons, List.length_cons, bytesOfBits, List.take_left' (fieldBits_length 8 _), List.drop_left' (fieldBits_length 8 _),
      ofNat_fieldBits, ih]

/-! ## Stuffing (R180) -/

/-- The level and the length of the run in which a stuffed run of bits ends. -/
def runAfter : Bool → Nat → List Bool → Bool × Nat
  | last, n, [] => (last, n)
  | last, n, b :: bs =>
    if (if b = last then n + 1 else 1) = 5 then runAfter (!b) 1 bs else runAfter b (if b = last then n + 1 else 1) bs

/-- Bits read back from their stuffing, whatever follows them. -/
theorem readBits_stuff (xs more tail : List Bool) (last : Bool) (n : Nat) :
    readBits xs.length ⟨last, n, stuff last n (xs ++ more) ++ tail⟩ =
      some (xs, ⟨(runAfter last n xs).1, (runAfter last n xs).2,
        stuff (runAfter last n xs).1 (runAfter last n xs).2 more ++ tail⟩) := by
  induction xs generalizing last n with
  | nil => rfl
  | cons b xs ih =>
    have stuffed (l : List Bool) : stuff last n (b :: l) =
        if (if b = last then n + 1 else 1) = 5 then b :: (!b) :: stuff (!b) 1 l
        else b :: stuff b (if b = last then n + 1 else 1) l := rfl
    have run : runAfter last n (b :: xs) =
        if (if b = last then n + 1 else 1) = 5 then runAfter (!b) 1 xs else runAfter b (if b = last then n + 1 else 1) xs := rfl
    rw [List.length_cons, show b :: xs ++ more = b :: (xs ++ more) from rfl, stuffed, run]
    by_cases full : (if b = last then n + 1 else 1) = 5
    · have other : ¬(!b) = b := by cases b <;> decide
      simp only [if_pos full, List.cons_append, readBits, if_neg other, ih, Option.map_some]
    · simp only [if_neg full, List.cons_append, readBits, ih, Option.map_some]

/-! ## A frame (R181, R187) -/

/-- The bits from the start bit through the length field. -/
def RawFrame.head (f : RawFrame) : List Bool :=
  false :: (fieldBits 3 f.priority.toNat ++ (fieldBits 4 f.sender.toNat ++
    (fieldBits 5 f.kind.toNat ++ (fieldBits 4 f.addressee.toNat ++ fieldBits 6 f.payload.length))))

/-- The payload with the CRC. -/
def RawFrame.body (f : RawFrame) : List Bool := payloadBits f.payload ++ fieldBits 16 (crcOf f.covered).toNat

theorem plainBits_eq (f : RawFrame) : f.plainBits = f.head ++ f.body := by
  simp [RawFrame.plainBits, RawFrame.head, RawFrame.body, RawFrame.covered, List.append_assoc]

theorem head_length (f : RawFrame) : f.head.length = 23 := by
  simp [RawFrame.head]

theorem body_length (f : RawFrame) : f.body.length = 8 * f.payload.length + 16 := by
  simp [RawFrame.body]

/-- A frame as it was sent, read in its two parts. -/
theorem send_reads (f : RawFrame) : ∃ c e : Cursor5, readBits 23 ⟨true, 0, f.send⟩ = some (f.head, c) ∧
    readBits (8 * f.payload.length + 16) c = some (f.body, e) ∧ e.rest = endMark := by
  have first := readBits_stuff f.head f.body endMark true 0
  rw [← plainBits_eq, head_length] at first
  have second := readBits_stuff f.body [] endMark (runAfter true 0 f.head).1 (runAfter true 0 f.head).2
  rw [List.append_nil, body_length] at second
  exact ⟨_, _, first, second, rfl⟩

/-- What stands behind the leading fields of the head. -/
theorem head_fields (f : RawFrame) :
    (f.head.drop 1).take 3 = fieldBits 3 f.priority.toNat ∧ (f.head.drop 4).take 4 = fieldBits 4 f.sender.toNat ∧
      (f.head.drop 8).take 5 = fieldBits 5 f.kind.toNat ∧ (f.head.drop 13).take 4 = fieldBits 4 f.addressee.toNat ∧
      f.head.drop 17 = fieldBits 6 f.payload.length ∧ f.head.drop 8 ++ payloadBits f.payload = f.covered := by
  have three : f.head.drop 4 = fieldBits 4 f.sender.toNat ++
      (fieldBits 5 f.kind.toNat ++ (fieldBits 4 f.addressee.toNat ++ fieldBits 6 f.payload.length)) :=
    List.drop_left' (l₁ := false :: fieldBits 3 f.priority.toNat) (by simp)
  have seven : f.head.drop 8 = fieldBits 5 f.kind.toNat ++ (fieldBits 4 f.addressee.toNat ++ fieldBits 6 f.payload.length) := by
    rw [show 8 = 4 + 4 from rfl, ← List.drop_drop, three, List.drop_left' (fieldBits_length 4 _)]
  have twelve : f.head.drop 13 = fieldBits 4 f.addressee.toNat ++ fieldBits 6 f.payload.length := by
    rw [show 13 = 8 + 5 from rfl, ← List.drop_drop, seven, List.drop_left' (fieldBits_length 5 _)]
  have sixteen : f.head.drop 17 = fieldBits 6 f.payload.length := by
    rw [show 17 = 13 + 4 from rfl, ← List.drop_drop, twelve, List.drop_left' (fieldBits_length 4 _)]
  refine ⟨?_, ?_, ?_, ?_, sixteen, ?_⟩
  · exact List.take_left' (fieldBits_length 3 _)
  · rw [three, List.take_left' (fieldBits_length 4 _)]
  · rw [seven, List.take_left' (fieldBits_length 5 _)]
  · rw [twelve, List.take_left' (fieldBits_length 4 _)]
  · rw [seven]
    simp [RawFrame.covered, List.append_assoc]

/-- A frame of up to 48 payload bytes is received as it was sent. -/
theorem receiveRaw_send {f : RawFrame} (short : f.payload.length ≤ 48) : receiveRaw f.send = some f := by
  obtain ⟨c, e, head, body, mark⟩ := send_reads f
  obtain ⟨priority, sender, kind, addressee, length, covered⟩ := head_fields f
  have count : bitsValue (f.head.drop 17) = f.payload.length := by
    rw [length, bitsValue_fieldBits]
    exact Nat.mod_eq_of_lt (by omega)
  have payload : f.body.take (8 * f.payload.length) = payloadBits f.payload := List.take_left' (payloadBits_length _)
  have check : bitsValue (f.body.drop (8 * f.payload.length)) = (crcOf f.covered).toNat := by
    rw [RawFrame.body, List.drop_left' (payloadBits_length _), bitsValue_fieldBits]
    exact Nat.mod_eq_of_lt (crcOf f.covered).isLt
  have start : f.head.head? = some false := rfl
  unfold receiveRaw
  rw [head]
  dsimp only
  rw [count, if_pos ⟨start, short⟩, body]
  dsimp only
  rw [payload, covered, check, if_pos ⟨rfl, mark⟩, priority, sender, kind, addressee, bytesOfBits_payloadBits, ofNat_fieldBits,
    ofNat_fieldBits, ofNat_fieldBits, ofNat_fieldBits]

end Sys2Proof.Machine
end

section
/-!
PROOF. The payload of each frame comes back as the command it was sent for (R187, R197, R198).
-/

namespace Sys2Proof.Machine

/-! ## Fields of a payload (R197) -/

/-- The byte of a number above its lowest `8 * k` bits. -/
def byteOf (k n : Nat) : Byte := BitVec.ofNat 8 (n / 256 ^ k)

theorem be16_eq (x : BitVec 16) : be16 x = [byteOf 1 x.toNat, byteOf 0 x.toNat] := rfl

theorem be32_eq (x : BitVec 32) : be32 x = [byteOf 3 x.toNat, byteOf 2 x.toNat, byteOf 1 x.toNat, byteOf 0 x.toNat] := rfl

theorem byteOf_toNat (k n : Nat) : (byteOf k n).toNat = n / 256 ^ k % 256 := BitVec.toNat_ofNat ..

theorem get16_bytes (x : BitVec 16) : BitVec.ofNat 16 (fromBytes [byteOf 1 x.toNat, byteOf 0 x.toNat]) = x := by
  have value : fromBytes [byteOf 1 x.toNat, byteOf 0 x.toNat] = x.toNat := by
    have small := x.isLt
    simp only [fromBytes, List.foldl_cons, List.foldl_nil, byteOf_toNat]
    omega
  rw [value, BitVec.ofNat_toNat, BitVec.setWidth_eq]

theorem get32_bytes (x : BitVec 32) :
    BitVec.ofNat 32 (fromBytes [byteOf 3 x.toNat, byteOf 2 x.toNat, byteOf 1 x.toNat, byteOf 0 x.toNat]) = x := by
  have value : fromBytes [byteOf 3 x.toNat, byteOf 2 x.toNat, byteOf 1 x.toNat, byteOf 0 x.toNat] = x.toNat := by
    have small := x.isLt
    simp only [fromBytes, List.foldl_cons, List.foldl_nil, byteOf_toNat]
    omega
  rw [value, BitVec.ofNat_toNat, BitVec.setWidth_eq]

section
variable (a : Byte) (l : List Byte) (i : Nat)

@[simp] theorem get8_zero : get8 (a :: l) 0 = a := rfl

@[simp] theorem get8_succ : get8 (a :: l) (i + 1) = get8 l i := rfl

@[simp] theorem get16_zero (x : BitVec 16) : get16 (byteOf 1 x.toNat :: byteOf 0 x.toNat :: l) 0 = x := get16_bytes x

@[simp] theorem get16_succ : get16 (a :: l) (i + 1) = get16 l i := rfl

@[simp] theorem get32_zero (x : BitVec 32) :
    get32 (byteOf 3 x.toNat :: byteOf 2 x.toNat :: byteOf 1 x.toNat :: byteOf 0 x.toNat :: l) 0 = x := get32_bytes x

@[simp] theorem get32_succ : get32 (a :: l) (i + 1) = get32 l i := rfl

@[simp] theorem byteAt_zero : byteAt (a :: l) 0 = a.toNat := rfl

@[simp] theorem byteAt_succ : byteAt (a :: l) (i + 1) = byteAt l i := rfl

end

/-- A count byte, which no text exceeds. -/
theorem count_toNat {n : Nat} (h : n ≤ 40) : (BitVec.ofNat 8 n).toNat = n := by
  rw [BitVec.toNat_ofNat]
  exact Nat.mod_eq_of_lt (by omega)

/-- A frame whose payload passes the tests of its kind is received as the command that it is. -/
theorem receiveCommand_send {f : RawFrame} {c : Instr} (short : f.payload.length ≤ 48) (lengths : lengthOk f.kind f.payload = true)
    (sender : f.sender ≠ 15) (command : commandOf f = c) : receiveCommand f.send = some c := by
  unfold receiveCommand
  rw [receiveRaw_send short]
  dsimp only
  rw [if_pos ⟨lengths, sender⟩, command]

/-- The label read back from its area, by its count byte. -/
theorem labelArea_back {l : List Byte} (h : l.length ≤ 16) : (labelArea l).take (l.length % 256) = l := by
  rw [Nat.mod_eq_of_lt (by omega)]
  exact List.take_left' rfl

theorem labelArea_length {l : List Byte} (h : l.length ≤ 16) : (labelArea l).length = 16 := by
  rw [labelArea, List.length_append, List.length_replicate]
  omega

/-- Settles O8: the bits of a frame come back (`receiveRaw_send`), and then its payload, kind by kind. Of the kinds with a text the
count byte gives the length; all others have one length. -/
theorem framesComeBackWhole : Obligations.FramesComeBackWhole := by
  intro pr c f wf hf
  cases c with
  | surveyOpen rx g =>
    obtain ⟨sender, short⟩ := of_decide_eq_true wf
    cases hf
    refine receiveCommand_send ?_ ?_ sender ?_
    · simp [be16_eq, labelArea_length short]
    · simp [be16_eq, lengthOk, labelArea_length short, count_toNat (short.trans (by decide))]
      exact short
    · simp [be16_eq, commandOf, labelArea_back short]
  | note rx g =>
    obtain ⟨sender, short⟩ := of_decide_eq_true wf
    cases hf
    refine receiveCommand_send ?_ ?_ sender ?_
    · simp [be16_eq]
      omega
    · simp [be16_eq, lengthOk, count_toNat short]
      omega
    · simp [be16_eq, commandOf]
  | printBlock rx g =>
    obtain ⟨sender, short, ends⟩ := of_decide_eq_true wf
    cases hf
    refine receiveCommand_send ?_ ?_ sender ?_
    · simp [be16_eq]
      omega
    · simp [be16_eq, lengthOk, count_toNat short]
      have one : g.mark.toNat = 1 ↔ g.mark = 1 := by
        rw [BitVec.toNat_eq]
        rfl
      exact ⟨⟨short, by omega⟩, by rw [one]; exact (em _).symm.imp_right ends⟩
    · simp [be16_eq, commandOf]
  | surveyClose | printRequest | recordRead | stationQuery | beacon | trigger | printAsk | queued | refused | go | taken | held | drop =>
    cases hf
    exact receiveCommand_send (by simp [be16_eq, be32_eq]) (by simp [lengthOk, be16_eq, be32_eq]) (of_decide_eq_true wf)
      (by simp [commandOf, be16_eq, be32_eq])
  | _ => cases hf

end Sys2Proof.Machine
end
